-- ==== Sys2Proof/Word.lean ====
section
/-! DEFINITION. The word types of the arithmetic codec core and the plain data types of its context model. -/

namespace Sys2Proof

/-- A bus word or command word: DATA_W = 32 bits (R6, R50, R70; `Config.word_width`). -/
abbrev Word := BitVec 32

/-- A host byte address: ADDR_W = 18 bits (R6, R50; `Config.addr_width`). -/
abbrev Addr := BitVec 18

/-- One byte of a bit buffer. -/
abbrev Byte := BitVec 8

/-- A symbol: one byte value 0..255 (R12, R100). -/
abbrev Symbol := BitVec 8

/-- The register width REG_W = 64 of LO, HI and VALUE (R6, R22). -/
abbrev Reg := BitVec 64

/-- A context of order k: exactly k symbols, oldest first; order 0 is the empty list (R12, R36). -/
abbrev Context := List Symbol

/-- A context record (R36): the count of each observed symbol, and the denormalized `total`, a field of its own.
A symbol that `counts` does not list has count 0. -/
structure CtxRecord where
  total  : Nat
  counts : List (Symbol × Nat)
  deriving DecidableEq, Repr

/-- The frequency table T (R36): a partial map from contexts to records, all orders together; the order of an
entry is the length of its context. -/
abbrev Table := List (Context × CtxRecord)

end Sys2Proof
end

