-- ==== Sys2Proof/Syntax.lean ====
section
/-! DEFINITION. The command set CACC version 1: the fields of the format CMD32 (R70) and one constructor per row of the
opcode map (R71). -/

namespace Sys2Proof

/-- The fields of the one command format CMD32 (R70). -/
structure Cmd32 where
  /-- OP, bits [31:28]. -/
  op   : BitVec 4
  /-- RSV, bits [27:8]. -/
  rsv  : BitVec 20
  /-- SYM8, bits [7:0]. -/
  sym8 : BitVec 8
  deriving DecidableEq, Repr

/-- The commands, one constructor per row of the opcode table. The only operand is the symbol of ENC_SYM, any of
0..255 (R72). -/
inductive Instr where
  /-- NOP (R172). -/
  | nop
  /-- INIT_ENC: start an encode run (R173). -/
  | initEnc
  /-- INIT_DEC: start a decode run (R174). -/
  | initDec
  /-- ENC_SYM s: encode one symbol position (R175). -/
  | encSym (sym : Symbol)
  /-- DEC_SYM: decode one symbol position (R176). -/
  | decSym
  /-- FINISH: end the run (R177). -/
  | finish
  deriving DecidableEq, Repr

end Sys2Proof
end

