-- ==== Sys2Proof/WellFormed.lean ====
section
/-! DEFINITION. The well-formedness of a command word's fields (R70, R71, R73): the three checks, and the fields an
instruction has. -/

namespace Sys2Proof

/-- The operation code of a row of the opcode map (R71). -/
def Instr.op : Instr → BitVec 4
  | .nop => 0
  | .initEnc => 1
  | .initDec => 2
  | .encSym _ => 3
  | .decSym => 4
  | .finish => 5

/-- The SYM8 field of an instruction: its symbol for ENC_SYM, zero for every other command (R70). -/
def Instr.sym8 : Instr → BitVec 8
  | .encSym s => s
  | _ => 0

/-- The fields of an instruction; RSV is zero in every command (R70). -/
def Instr.fields (i : Instr) : Cmd32 := { op := i.op, rsv := 0, sym8 := i.sym8 }

/-- OP values 0x6 to 0xF are reserved (R73). -/
def Cmd32.opOk (f : Cmd32) : Bool := f.op.toNat ≤ 5

/-- A word with RSV nonzero is illegal (R73). -/
def Cmd32.rsvOk (f : Cmd32) : Bool := f.rsv == 0

/-- A word other than ENC_SYM with SYM8 nonzero is illegal (R73). -/
def Cmd32.symOk (f : Cmd32) : Bool := f.op == 3 || f.sym8 == 0

/-- The fields belong to a legal encoding: no clause of R73 applies. -/
def Cmd32.wf (f : Cmd32) : Bool := f.opOk && f.rsvOk && f.symOk

/-- An instruction is well formed when its fields are. -/
def Instr.wf (i : Instr) : Bool := i.fields.wf

end Sys2Proof
end

