-- ==== Sys2Proof/Decode.lean ====
section
/-! DEFINITION. The decoder, from the match and mask columns of the opcode map (R71), total on every 32-bit word and
rejecting by name (R73); the encoder, from the format's fields (R70, R72). -/

namespace Sys2Proof

/-- Why a command word matches no row of R71: the three clauses of R73. -/
inductive DecodeError where
  /-- OP is 0x6 to 0xF. -/
  | reservedOp
  /-- OP is a command's and RSV is nonzero. -/
  | reservedBits
  /-- OP is a command's without operand, RSV is zero and SYM8 is nonzero. -/
  | strayOperand
  deriving DecidableEq, Repr

/-- The fields of a command word (R70). -/
def Cmd32.ofWord (w : Word) : Cmd32 :=
  { op := w.extractLsb' 28 4, rsv := w.extractLsb' 8 20, sym8 := w.extractLsb' 0 8 }

/-- The command word with these fields (R70). -/
def Cmd32.word (f : Cmd32) : Word := f.op ++ f.rsv ++ f.sym8

/-- A row of the opcode map (R71): a word w selects it when `w AND mask = match`. `row` is its command, with
operand 0 where it takes one. -/
structure OpRow where
  pattern : Word
  mask    : Word
  row     : Instr
  deriving DecidableEq, Repr

/-- The opcode map of R71. -/
def opcodeMap : List OpRow :=
  [ ⟨0x00000000, 0xFFFFFFFF, .nop⟩,
    ⟨0x10000000, 0xFFFFFFFF, .initEnc⟩,
    ⟨0x20000000, 0xFFFFFFFF, .initDec⟩,
    ⟨0x30000000, 0xFFFFFF00, .encSym 0⟩,
    ⟨0x40000000, 0xFFFFFFFF, .decSym⟩,
    ⟨0x50000000, 0xFFFFFFFF, .finish⟩ ]

/-- The row matches the word (R71). -/
def OpRow.hits (r : OpRow) (w : Word) : Bool := w &&& r.mask == r.pattern

/-- Put the operand of the word into a row's command: SYM8 = w[7:0] for ENC_SYM, unsigned and unscaled (R72). -/
def Instr.withOperand (i : Instr) (w : Word) : Instr :=
  match i with
  | .encSym _ => .encSym (w.extractLsb' 0 8)
  | i => i

/-- Which clause of R73 a word that matches no row falls under. -/
def decodeError (w : Word) : DecodeError :=
  let f := Cmd32.ofWord w
  if f.opOk then (if f.rsvOk then .strayOperand else .reservedBits) else .reservedOp

/-- The decoder: the command of the row the word matches (R71), or the clause of R73 that rejects it. -/
def decodeWord (w : Word) : Except DecodeError Instr :=
  match opcodeMap.find? (fun r => r.hits w) with
  | some r => .ok (r.row.withOperand w)
  | none => .error (decodeError w)

/-- The encoder: the word with the instruction's fields (R70, R72). -/
def encode (i : Instr) : Word := i.fields.word

/-- The instruction the decoder reads from an opcode-table row's bits. Every command is one 32-bit word (R70), so a
longer row is none, and the bits above a shorter row are 0. -/
def decodeTableWord (nbits w : Nat) : Option Instr :=
  if nbits ≤ 32 then
    match decodeWord (BitVec.ofNat 32 w) with
    | .ok i => some i
    | .error _ => none
  else none

end Sys2Proof
end

