-- ==== Sys2Proof/Config.lean ====
section
/-! DEFINITION. What an implementation fixes (R6, R7, R130) and the free values the spec leaves open (R46, R47, R60). -/

namespace Sys2Proof.Config

/-- Coding precision P in bits (R6). -/
def PREC : Nat := 32

/-- Alphabet size (R6). -/
def NSYM : Nat := 256

/-- Highest context order the frequency table holds (R6). -/
def M : Nat := 3

/-- Host bus byte-address width in bits (R6): the width of `Addr`. -/
def ADDR_W : Nat := 18

/-- Host bus data width in bits (R6): the width of `Word`. -/
def DATA_W : Nat := 32

/-- `ONE = 2^P - 1` (R130). -/
def ONE : Nat := 2 ^ PREC - 1

/-- `QUARTER = ceil(ONE / 4)` (R130). -/
def QUARTER : Nat := (ONE + 3) / 4

/-- `HALF = 2 * QUARTER` (R130). -/
def HALF : Nat := 2 * QUARTER

/-- `THREEQUARTERS = 3 * QUARTER` (R130). -/
def THREEQUARTERS : Nat := 3 * QUARTER

/-- Number system of the probability estimator (R6, R8). -/
inductive ProbArith where
  | exact
  | binary64
  deriving DecidableEq, Repr

/-- What the order -1 step of Observe does (R6, R116). -/
inductive FloorRecord where
  | increment
  | ensure
  deriving DecidableEq, Repr

/-- The parameters of R6 that a build may choose (log entry 14). -/
structure Build where
  regW        : Nat
  straddleW   : Nat
  cntW        : Nat
  ctxCap      : Option Nat
  ibufBits    : Nat
  obufBits    : Nat
  probArith   : ProbArith
  floorRecord : FloorRecord
  deriving DecidableEq, Repr

/-- CTX_CAP, which the spec leaves OPEN (R6, R122): `none` is the unbounded reference reading. It has no body, so
nothing can be proved of its value (log entry 6). -/
opaque CTX_CAP : Option Nat

/-- This hardware (R6, the column "this hardware"). -/
def build : Build where
  regW := 64
  straddleW := 32
  cntW := 32
  ctxCap := CTX_CAP
  ibufBits := 524288
  obufBits := 524288
  probArith := .exact
  floorRecord := .increment

/-! The free values. Each is a constant without a body, applied to the index of a draw (`State.draws`), so a statement
holds whatever it is. -/

/-- A byte of IBUF or OBUF that nothing has written since the draw (R46, R47): draw index, bus byte address. -/
opaque freeByte : Nat → Nat → Byte

/-- The word a host read of any address but STATUS returns while BUSY = 1 (R60). -/
opaque freeReadWord : Nat → Word

/-- LO after a fault (R47). -/
opaque freeLo : Nat → Reg

/-- HI after a fault (R47). -/
opaque freeHi : Nat → Reg

/-- VALUE after a fault (R47). -/
opaque freeValue : Nat → Reg

/-- STRADDLE after a fault (R47). -/
opaque freeStraddle : Nat → Word

/-- CURSOR after a fault (R47). -/
opaque freeCursor : Nat → Word

/-- RUN_LEN after a fault (R47). -/
opaque freeRunLen : Nat → BitVec 20

/-- RUN_W after a fault (R47). -/
opaque freeRunW : Nat → BitVec 2

/-- OUT_LEN after a fault (R47). -/
opaque freeOutLen : Nat → BitVec 20

/-- SYM after a fault (R47). -/
opaque freeSym : Nat → Symbol

/-- SYMCOUNT after a fault (R47). -/
opaque freeSymCount : Nat → Word

/-- T after a fault (R47). -/
opaque freeTable : Nat → Table

/-- H after a fault (R47). -/
opaque freeHist : Nat → Context

end Sys2Proof.Config
end

