-- ==== Sys2Proof/Machine/Binary64.lean ====
section
/-! DEFINITION. The number systems of the estimator (R6, R8): exact rationals, and IEEE 754 binary64 with round to nearest,
ties to even (R114, R152, log entry 11), as a rounding of exact results. This hardware is EXACT. -/

namespace Sys2Proof.Machine

/-- n / d rounded to an integer, ties to even. -/
def roundHalfEven (n d : Nat) : Nat :=
  let q := n / d
  let r := n % d
  if 2 * r < d then q else if d < 2 * r then q + 1 else q + q % 2

/-- The numerator and denominator of n / d divided by 2^e. -/
def scaleDown (n d : Nat) (e : Int) : Nat × Nat :=
  if 0 ≤ e then (n, d * 2 ^ e.toNat) else (n * 2 ^ (-e).toNat, d)

/-- The exponent of the last place of n / d > 0 in binary64: 53 significant bits, and no place below 2^-1074. -/
def lastPlace (n d : Nat) : Int :=
  let e := (Nat.log2 n : Int) - (Nat.log2 d : Int) - 52
  let m := scaleDown n d e
  max (if m.1 < 2 ^ 52 * m.2 then e - 1 else e) (-1074)

/-- `fl(x)` for x ≥ 0 below the overflow threshold: the binary64 value nearest x, ties to even. -/
def roundBinary64 (x : ℚ) : ℚ :=
  let n := x.num.toNat
  if n = 0 then 0
  else
    let e := lastPlace n x.den
    let m := scaleDown n x.den e
    (roundHalfEven m.1 m.2 : ℚ) * (2 : ℚ) ^ e

/-- The rounding of one arithmetic step: none in EXACT, one rounding in BINARY64 (R8, R113, R114). -/
def roundStep (b : Config.Build) (x : ℚ) : ℚ :=
  match b.probArith with
  | .exact => x
  | .binary64 => roundBinary64 x

end Sys2Proof.Machine
end

