-- ==== Sys2Proof/Machine/Assoc.lean ====
section
/-! DEFINITION. Partial maps as lists of (key, value) pairs in one canonical form: the codes of the keys strictly rising.
Used for the bytes of a buffer, the counts of a record and the frequency table. -/

namespace Sys2Proof.Machine.Assoc

/-- The value at a key; keys are compared by their code. -/
def find? {κ α : Type} (code : κ → Nat) : List (κ × α) → κ → Option α
  | [], _ => none
  | (k', v) :: l, k => if code k' = code k then some v else find? code l k

/-- Put a value at a key, in its place in the order of the codes. -/
def insert {κ α : Type} (code : κ → Nat) : List (κ × α) → κ → α → List (κ × α)
  | [], k, v => [(k, v)]
  | (k', v') :: l, k, v =>
    if code k < code k' then (k, v) :: (k', v') :: l
    else if code k = code k' then (k, v) :: l
    else (k', v') :: insert code l k v

/-- The canonical form: the codes strictly rising, so that no key stands twice. -/
abbrev Sorted {κ α : Type} (code : κ → Nat) (l : List (κ × α)) : Prop :=
  l.Pairwise (fun x y => code x.1 < code y.1)

end Sys2Proof.Machine.Assoc
end

