-- ==== Sys2Proof/Machine/State.lean ====
section
/-! DEFINITION. The state of the machine (R22), its plain data, and the state after reset (R46). -/

namespace Sys2Proof.Machine

/-- STATE (R22, R29). -/
inductive RunState where
  | idle
  | active
  | terminated
  | faulted
  deriving DecidableEq, Repr

/-- MODE (R22, R30). -/
inductive Mode where
  | encode
  | decode
  deriving DecidableEq, Repr

/-- The fault codes 0 to 14 of STATUS.FAULT (R200); code 15 is never written. -/
inductive FaultCode where
  | noFault
  | zeroInterval
  | modelInconsistency
  | intervalOverflow
  | straddleOverflow
  | countOverflow
  | tableFull
  | sinkFull
  | sourceExhausted
  | noSymbol
  | illegalCommand
  | badConfig
  | badLength
  | overrun
  | busError
  deriving DecidableEq, Repr

/-- A host move (R247): the only accesses are reads and writes of one 32-bit word (R51); RESET is the platform's
input (R230). -/
inductive HostMove where
  /-- MemWrite(addr, 4, v). -/
  | write (addr : Addr) (v : Word)
  /-- MemRead(addr, 4). -/
  | read (addr : Addr)
  /-- RESET is asserted. -/
  | reset
  deriving DecidableEq, Repr

/-- An event of the two-agent system (R20, R61): a host move, or the core's turn to execute its latched command. -/
inductive Event where
  | host (m : HostMove)
  | core
  deriving DecidableEq, Repr

/-- The reasons the machine itself stops: there is none. The faults of R200 abort a RUN and leave the machine running in
STATE = FAULTED (R215, R216), so each of them is a next state; no instruction and no host move ends a step in a
fault of this type. -/
inductive Fault where
  deriving DecidableEq, Repr

/-- The reasons a step is refused. -/
inductive Refusal where
  /-- An instruction that has no meaning in the model: raised by an arm of `exec`, and no arm raises it. Safe: the
  machine stops there. -/
  | notModelled (mnemonic : String)
  deriving DecidableEq, Repr

/-- The bytes of a bit buffer that something has written, by bus byte address, addresses strictly rising. An address
that is not listed has no value of its own: it reads as a free draw (R46, log entry 2). -/
abbrev Memory := List Host.Cell

/-- The state: every element of R22, and after them the model's own fields (log entries 1 and 12). BUSY is the
view `State.busy` of `pend` (R31, log entry 13). -/
structure State where
  /-- STATE. -/
  runState : RunState
  /-- MODE. -/
  mode     : Mode
  /-- PEND: the latched command word, if any; BUSY = 1 exactly when there is one. -/
  pend     : Option Word
  /-- FAULT. -/
  fault    : FaultCode
  /-- LO. -/
  lo       : Reg
  /-- HI. -/
  hi       : Reg
  /-- VALUE. -/
  value    : Reg
  /-- STRADDLE. -/
  straddle : Word
  /-- CURSOR. -/
  cursor   : Word
  /-- RUN_LEN. -/
  runLen   : BitVec 20
  /-- RUN_W. -/
  runW     : BitVec 2
  /-- OUT_LEN. -/
  outLen   : BitVec 20
  /-- SYM. -/
  sym      : Symbol
  /-- SYM_VALID. -/
  symValid : Bool
  /-- SYMCOUNT. -/
  symCount : Word
  /-- CONFIG.MAXORD; the other bits of CONFIG read 0. -/
  maxord   : BitVec 2
  /-- IN_LEN[19:0]; the other bits of IN_LEN read 0. -/
  inLen    : BitVec 20
  /-- IBUF. -/
  ibuf     : Memory
  /-- OBUF. -/
  obuf     : Memory
  /-- T. -/
  table    : Table
  /-- H, oldest symbol first. -/
  hist     : Context
  /-- The model's own: the word the last host read returned. -/
  readData : Option Word
  /-- The model's own: the draw the unlisted bytes of IBUF read from. -/
  ibufDraw : Nat
  /-- The model's own: the draw the unlisted bytes of OBUF read from. -/
  obufDraw : Nat
  /-- The model's own: the index of the next draw. -/
  draws    : Nat
  /-- The model's own: the events to come, the next one first. -/
  agenda   : List Event
  deriving DecidableEq, Repr

/-- The state after reset (R46). IBUF and OBUF list nothing: every bit of them is unspecified. -/
def State.reset : State where
  runState := .idle
  mode := .encode
  pend := none
  fault := .noFault
  lo := 0
  hi := 0
  value := 0
  straddle := 0
  cursor := 0
  runLen := 0
  runW := 2
  outLen := 0
  sym := 0
  symValid := false
  symCount := 0
  maxord := 2
  inLen := 0
  ibuf := []
  obuf := []
  table := []
  hist := []
  readData := none
  ibufDraw := 0
  obufDraw := 0
  draws := 1
  agenda := []

end Sys2Proof.Machine
end

