-- ==== Sys2Proof/Machine/Ops.lean ====
section
/-! DEFINITION. The named operations over the state: the bit buffers byte by byte, bit by bit and word by word (R54, R55),
the named updates of the registers, raising a fault (R216, R47) and leaving FAULTED or any other state by starting a
run (R173, R174, R219), and the reset event (R230). -/

namespace Sys2Proof.Machine

/-! ## The bytes of a buffer -/

/-- The byte written at a bus byte address, if any. -/
def Memory.get? (m : Memory) (a : Nat) : Option Byte := Assoc.find? id m a

/-- Write a byte at a bus byte address. -/
def Memory.put (m : Memory) (a : Nat) (b : Byte) : Memory := Assoc.insert id m a b

/-- The canonical form: addresses strictly rising. An unlisted address has no value (log entry 2), so no entry can equal
one. -/
abbrev Memory.wf (m : Memory) : Prop := Assoc.Sorted id m

/-- First bus byte address of IBUF (R50). -/
def ibufBase : Nat := 0x10000

/-- First bus byte address of OBUF (R50). -/
def obufBase : Nat := 0x20000

/-- The bus byte address that holds stream bit i of the buffer at `base`: a word's bits [31:24] stand at its lowest
byte address (R54, R55, log entry 3). -/
def streamByte (base i : Nat) : Nat := base + i / 8

/-- The place of stream bit i in its byte: most significant bit first (R54, R55). -/
def streamPlace (i : Nat) : Nat := 7 - i % 8

/-- A byte with bit j set to v. -/
def setBit (b : Byte) (j : Nat) (v : Bool) : Byte :=
  if v then b ||| BitVec.twoPow 8 j else b &&& ~~~ BitVec.twoPow 8 j

/-- The byte of IBUF at a bus byte address: what was last written there, or a free draw (R46, R180). -/
def State.ibufByte (s : State) (a : Nat) : Byte := (s.ibuf.get? a).getD (Config.freeByte s.ibufDraw a)

/-- The byte of OBUF at a bus byte address: what was last written there, or a free draw (R46, R47, R55). -/
def State.obufByte (s : State) (a : Nat) : Byte := (s.obuf.get? a).getD (Config.freeByte s.obufDraw a)

/-- `IBit(i)`: bit i of the input stream (R54). -/
def State.ibit (s : State) (i : Nat) : Bool := (s.ibufByte (streamByte ibufBase i)).getLsbD (streamPlace i)

/-- Bit i of the output stream (R55). -/
def State.obit (s : State) (i : Nat) : Bool := (s.obufByte (streamByte obufBase i)).getLsbD (streamPlace i)

/-- The IBUF word at a word-aligned bus byte address (R54, R180). -/
def State.ibufWord (s : State) (a : Nat) : Word :=
  s.ibufByte a ++ s.ibufByte (a + 1) ++ s.ibufByte (a + 2) ++ s.ibufByte (a + 3)

/-- The OBUF word at a word-aligned bus byte address (R55, R180). -/
def State.obufWord (s : State) (a : Nat) : Word :=
  s.obufByte a ++ s.obufByte (a + 1) ++ s.obufByte (a + 2) ++ s.obufByte (a + 3)

/-- Write the IBUF word at a word-aligned bus byte address (R179). -/
def State.putIbufWord (s : State) (a : Nat) (v : Word) : State :=
  { s with ibuf := (((s.ibuf.put a (v.extractLsb' 24 8)).put (a + 1) (v.extractLsb' 16 8)).put (a + 2)
      (v.extractLsb' 8 8)).put (a + 3) (v.extractLsb' 0 8) }

/-- Write bit i of the output stream; the other bits of its byte keep what they held (R55, R145). -/
def State.putObit (s : State) (i : Nat) (v : Bool) : State :=
  let a := streamByte obufBase i
  { s with obuf := s.obuf.put a (setBit (s.obufByte a) (streamPlace i) v) }

/-! ## Registers -/

/-- BUSY: a latched command awaits execution (R31). -/
def State.busy (s : State) : Bool := s.pend.isSome

/-- `LO <- l; HI <- h`, of values that pass the width check. -/
def State.setInterval (s : State) (l h : Nat) : State := { s with lo := BitVec.ofNat 64 l, hi := BitVec.ofNat 64 h }

/-- `VALUE <- v`, of a value that passes the width check. -/
def State.setValue (s : State) (v : Nat) : State := { s with value := BitVec.ofNat 64 v }

/-- `STRADDLE <- n`. -/
def State.setStraddle (s : State) (n : Nat) : State := { s with straddle := BitVec.ofNat 32 n }

/-- `CURSOR <- n`. -/
def State.setCursor (s : State) (n : Nat) : State := { s with cursor := BitVec.ofNat 32 n }

/-- `OUT_LEN <- n`. -/
def State.setOutLen (s : State) (n : Nat) : State := { s with outLen := BitVec.ofNat 20 n }

/-- `T <- t; H <- h`. -/
def State.setModel (s : State) (t : Table) (h : Context) : State := { s with table := t, hist := h }

/-- `SYM <- a; SYM_VALID <- 1` (R33). -/
def State.setSym (s : State) (a : Symbol) : State := { s with sym := a, symValid := true }

/-- `SYMCOUNT <- (SYMCOUNT + 1) mod 2^32` (R34). -/
def State.countSymbol (s : State) : State := { s with symCount := s.symCount + 1 }

/-- `STATE <- TERMINATED` (R177). -/
def State.terminate (s : State) : State := { s with runState := .terminated }

/-- `PEND <- w; BUSY <- 1` (R170). -/
def State.latch (s : State) (w : Word) : State := { s with pend := some w }

/-- `PEND <- no command; BUSY <- 0` (R170). -/
def State.retire (s : State) : State := { s with pend := none }

/-- Deliver a word to the host (R180). -/
def State.deliver (s : State) (w : Word) : State := { s with readData := some w }

/-- Deliver an unspecified word to the host (R60): a fresh free draw. -/
def State.deliverFree (s : State) : State :=
  { s with readData := some (Config.freeReadWord s.draws), draws := s.draws + 1 }

/-- `CONFIG[1:0] <- v[1:0]` (R179). -/
def State.setConfig (s : State) (v : Word) : State := { s with maxord := v.extractLsb' 0 2 }

/-- `IN_LEN[19:0] <- v[19:0]` (R179). -/
def State.setInLen (s : State) (v : Word) : State := { s with inLen := v.extractLsb' 0 20 }

/-- The agenda without its first event. -/
def State.setAgenda (s : State) (l : List Event) : State := { s with agenda := l }

/-! ## Faults, starting a run, reset -/

/-- `raise Fault(CODE)` (R216): STATE, FAULT, SYM_VALID and PEND are written; MODE, CONFIG, IN_LEN and IBUF keep their
values; every other element of R22 is unspecified, so it takes a free draw (R47, log entry 4). -/
def State.raise (s : State) (c : FaultCode) : State :=
  { s with
    runState := .faulted
    fault := c
    symValid := false
    pend := none
    lo := Config.freeLo s.draws
    hi := Config.freeHi s.draws
    value := Config.freeValue s.draws
    straddle := Config.freeStraddle s.draws
    cursor := Config.freeCursor s.draws
    runLen := Config.freeRunLen s.draws
    runW := Config.freeRunW s.draws
    outLen := Config.freeOutLen s.draws
    sym := Config.freeSym s.draws
    symCount := Config.freeSymCount s.draws
    table := Config.freeTable s.draws
    hist := Config.freeHist s.draws
    obuf := []
    obufDraw := s.draws
    draws := s.draws + 1 }

/-- A host-access fault (Overrun, BusError): as `raise`, but the first fault's code stays when the core is already FAULTED
(R213, R214, R217). -/
def State.raiseHost (s : State) (c : FaultCode) : State :=
  s.raise (if s.runState = .faulted then s.fault else c)

/-- What INIT_ENC and INIT_DEC both do to start a run (R173, R174), which is also the only way a command leaves FAULTED
(R219): RUN_W is latched, T and H are emptied, the run's counters and SYM are cleared, FAULT is 0 and STATE is ACTIVE.
The interval is the initial one in both (R173, R149). -/
def State.startRun (s : State) (m : Mode) (value cursor : Nat) (runLen : BitVec 20) : State :=
  { s with
    runW := s.maxord
    table := []
    hist := []
    lo := BitVec.ofNat 64 0
    hi := BitVec.ofNat 64 Config.ONE
    value := BitVec.ofNat 64 value
    straddle := 0
    cursor := BitVec.ofNat 32 cursor
    runLen := runLen
    outLen := 0
    symCount := 0
    sym := 0
    symValid := false
    fault := .noFault
    mode := m
    runState := .active }

/-- RESET (R230): a latched command is discarded and every state element takes its reset value (R46); the bits of IBUF and
OBUF are unspecified, a fresh draw. The host's own record (the events to come, the word it last read) is not the
core's state (log entry 9). -/
def State.assertReset (s : State) : State :=
  { State.reset with
    readData := s.readData
    agenda := s.agenda
    ibufDraw := s.draws
    obufDraw := s.draws
    draws := s.draws + 1 }

end Sys2Proof.Machine
end

