-- ==== Sys2Proof/Machine/ContextModel.lean ====
section
/-! DEFINITION. The context model (40_context_model.md): contexts and records, `Estimate()` (R103 to R114) and `Observe(s)`
(R115 to R122). -/

namespace Sys2Proof

/-! ## Contexts, records, the table -/

/-- `ctx(k) = H[|H|-k .. |H|-1]`: the last k symbols of the history, oldest first (R101). -/
def ctx (h : Context) (k : Nat) : Context := h.drop (h.length - k)

/-- An order of contexts for the canonical form of the table: shorter contexts first, then by their symbols. -/
def contextCode : Context → Nat
  | [] => 0
  | a :: l => (a.toNat + 1) + 257 * contextCode l

/-- `T[k][c]`, of a context c of order k; `none` when the context is unseen (R36). -/
def Table.record? (t : Table) (c : Context) : Option CtxRecord := Machine.Assoc.find? contextCode t c

/-- `T[k][c] <- r`. -/
def Table.put (t : Table) (c : Context) (r : CtxRecord) : Table := Machine.Assoc.insert contextCode t c r

/-- `rec.cnt[s]` (R36). -/
def CtxRecord.cnt (r : CtxRecord) (s : Symbol) : Nat := (Machine.Assoc.find? BitVec.toNat r.counts s).getD 0

/-- The symbols observed in a record, `{x : rec.cnt[x] > 0}` (R36). -/
def CtxRecord.observed (r : CtxRecord) : List Symbol := (r.counts.filter (fun e => decide (0 < e.2))).map Prod.fst

/-- The record of a context seen for the first time, with symbol s (R117). -/
def CtxRecord.fresh (s : Symbol) : CtxRecord := { total := 1, counts := [(s, 1)] }

/-- The record with `cnt[s]` and `total` one larger (R116, R118, R119). -/
def CtxRecord.bump (r : CtxRecord) (s : Symbol) : CtxRecord :=
  { total := r.total + 1, counts := Machine.Assoc.insert BitVec.toNat r.counts s (r.cnt s + 1) }

/-- `C(rec, X) = rec.total - Σ_{x ∈ X} rec.cnt[x]` (R102); X has no repeats. -/
def CtxRecord.nonExcluded (r : CtxRecord) (x : List Symbol) : Nat := r.total - (x.map r.cnt).sum

/-- `X ∪ {x : rec.cnt[x] > 0}` (R109), without repeats. -/
def exclude (x : List Symbol) (r : CtxRecord) : List Symbol := x ++ r.observed.filter (fun a => decide (a ∉ x))

end Sys2Proof

namespace Sys2Proof.Machine

/-! ## Estimate -/

/-- The records of the contexts of order n-1, n-2, …, 0, the longest first; `none` where the context is unseen. -/
def levels (t : Table) (h : Context) : Nat → List (Option CtxRecord)
  | 0 => []
  | n + 1 => t.record? (ctx h n) :: levels t h n

/-- Uniform fallback (R107): `p * (1 / (256 - |X|))`. -/
def uniformStep (b : Config.Build) (p : ℚ) (x : List Symbol) : ℚ :=
  roundStep b (p * roundStep b (1 / ((Config.NSYM - x.length : Nat) : ℚ)))

/-- The escape mass `e = 1 / (C + 1)` (R109, R110). -/
def escapeMass (b : Config.Build) (c : Nat) : ℚ := roundStep b (1 / ((c + 1 : Nat) : ℚ))

/-- Escape (R109): `p * e`. -/
def escapeStep (b : Config.Build) (p : ℚ) (c : Nat) : ℚ := roundStep b (p * escapeMass b c)

/-- Resolve (R110): `p * ((cnt / C) * (1 - e))`. -/
def resolveStep (b : Config.Build) (p : ℚ) (cnt c : Nat) : ℚ :=
  roundStep b (p * roundStep b (roundStep b ((cnt : ℚ) / (c : ℚ)) * roundStep b (1 - escapeMass b c)))

/-- The loop of EstimateOne (R104) over the records of the orders still to visit: no order left is k = -1 (R107), an
unseen context (R108), an escape (R109), a resolution (R110). -/
def estimateFrom (b : Config.Build) (s : Symbol) : List (Option CtxRecord) → ℚ → List Symbol → ℚ
  | [], p, x => uniformStep b p x
  | none :: l, p, x => estimateFrom b s l p x
  | some r :: l, p, x =>
    if r.cnt s = 0 then estimateFrom b s l (escapeStep b p (r.nonExcluded x)) (exclude x r)
    else resolveStep b p (r.cnt s) (r.nonExcluded x)

/-- `EstimateOne(s)` (R104). -/
def estimateOne (b : Config.Build) (t : Table) (h : Context) (s : Symbol) : ℚ :=
  estimateFrom b s (levels t h (h.length + 1)) 1 []

/-- The vectors of one estimation (R38, R112): P has 256 entries and F has 257. -/
structure Estimate where
  P : List ℚ
  F : List ℚ

/-- `F[0] = f; F[s+1] = F[s] + P[s]` (R112). -/
def cumulate (b : Config.Build) : ℚ → List ℚ → List ℚ
  | f, [] => [f]
  | f, p :: l => f :: cumulate b (roundStep b (f + p)) l

/-- The alphabet 0..255 in increasing order (R100). -/
def alphabet : List Symbol := (List.range Config.NSYM).map (BitVec.ofNat 8)

/-- `Estimate()` (R112): a pure function of (T, H) and the build (R103). -/
def estimate (b : Config.Build) (t : Table) (h : Context) : Estimate :=
  let lv := levels t h (h.length + 1)
  let ps := alphabet.map (fun s => estimateFrom b s lv 1 [])
  { P := ps, F := cumulate b 0 ps }

/-- `P[s]`. -/
def Estimate.p (e : Estimate) (s : Symbol) : ℚ := e.P.getD s.toNat 0

/-- `F[n]`, 0 ≤ n ≤ 256. -/
def Estimate.f (e : Estimate) (n : Nat) : ℚ := e.F.getD n 0

/-! ## Observe -/

/-- The count limit `2^CNT_W - 1` (R121). -/
def countMax (b : Config.Build) : Nat := 2 ^ b.cntW - 1

/-- Count one more observation of s in the record of context c (R116, R118, R119), unless a count or total would pass
the limit (R121). -/
def bumpRecord (b : Config.Build) (t : Table) (c : Context) (r : CtxRecord) (s : Symbol) : Except FaultCode Table :=
  if countMax b < r.cnt s + 1 ∨ countMax b < r.total + 1 then .error .countOverflow
  else .ok (t.put c (r.bump s))

/-- The table already holds CTX_CAP records (R122). -/
def tableIsFull (b : Config.Build) (t : Table) : Bool :=
  match b.ctxCap with
  | none => false
  | some n => decide (n ≤ t.length)

/-- Order -1 of Observe (R116). The order-0 record is present then; where it is not, no run gets here (log entry 10). -/
def observeFloor (b : Config.Build) (s : Symbol) (t : Table) : Except FaultCode Table :=
  match b.floorRecord, t.record? [] with
  | .increment, some r => bumpRecord b t [] r s
  | _, _ => .ok t

/-- The loop of Observe (R115): argument n stands for the order n - 1. -/
def observeFrom (b : Config.Build) (h : Context) (s : Symbol) : Nat → Table → Except FaultCode Table
  | 0, t => observeFloor b s t
  | k + 1, t =>
    match t.record? (ctx h k) with
    | none =>
      if tableIsFull b t then .error .tableFull
      else observeFrom b h s k (t.put (ctx h k) (CtxRecord.fresh s))
    | some r =>
      if r.cnt s = 0 then
        match bumpRecord b t (ctx h k) r s with
        | .error c => .error c
        | .ok t' => observeFrom b h s k t'
      else bumpRecord b t (ctx h k) r s

/-- The slide of the history window of capacity w (R120). -/
def slide (w : Nat) (h : Context) (s : Symbol) : Context :=
  if h.length < w then h ++ [s] else h.drop 1 ++ [s]

/-- `Observe(s)` (R115): update T, then slide H. -/
def observe (b : Config.Build) (s : Symbol) (st : State) : Except FaultCode State :=
  match observeFrom b st.hist s (st.hist.length + 1) st.table with
  | .error c => .error c
  | .ok t => .ok (st.setModel t (slide st.runW.toNat st.hist s))

end Sys2Proof.Machine
end

