-- ==== Sys2Proof/Machine/Codec.lean ====
section
/-! DEFINITION. The arithmetic codec (41_arith_codec.md): Narrow, Locate, the renormalizers, Emit, Absorb, Flush and
LoadValue. Values are computed as natural numbers and then width-checked (R8, R136); an operation ends in the state it
leaves, or in the code of the fault it raises (R216). -/

namespace Sys2Proof.Machine

/-- `WidthCheck(v)` (R136): the value fits in REG_W bits. -/
def widthOk (b : Config.Build) (v : Nat) : Bool := decide (v ≤ 2 ^ b.regW - 1)

/-- `range = HI - LO + 1` (R132), for LO ≤ HI + 1. -/
def State.range (s : State) : Nat := s.hi.toNat + 1 - s.lo.toNat

/-! ## Narrow and Locate -/

/-- The new LO of Narrow: `LO + ceil(r * F[s])` (R133, R152). -/
def narrowedLo (b : Config.Build) (e : Estimate) (a : Symbol) (s : State) : Nat :=
  s.lo.toNat + ⌈roundStep b (roundStep b (s.range : ℚ) * e.f a.toNat)⌉₊

/-- The new HI of Narrow: the new LO + `floor(r * P[s])` (R133, R152). -/
def narrowedHi (b : Config.Build) (e : Estimate) (a : Symbol) (s : State) : Nat :=
  narrowedLo b e a s + ⌊roundStep b (roundStep b (s.range : ℚ) * e.p a)⌋₊

/-- `Narrow(s, P, F)` (R133 to R136). -/
def narrow (b : Config.Build) (e : Estimate) (a : Symbol) (s : State) : Except FaultCode State :=
  if e.p a = 0 then .error .modelInconsistency
  else
    let l := narrowedLo b e a s
    let h := narrowedHi b e a s
    if widthOk b l && widthOk b h then
      if l = h then .error .zeroInterval else .ok (s.setInterval l h)
    else .error .intervalOverflow

/-- The scaled value `x = (VALUE - LO) / r` (R137, R152). -/
def scaledValue (b : Config.Build) (s : State) : ℚ :=
  roundStep b (((s.value.toNat - s.lo.toNat : Nat) : ℚ) / (s.range : ℚ))

/-- The last index, counted from i, of an entry that is at most x; `best` when there is none. -/
def lastAtMost (x : ℚ) : List ℚ → Nat → Nat → Nat
  | [], _, best => best
  | f :: l, i, best => lastAtMost x l (i + 1) (if f ≤ x then i else best)

/-- `Locate(P, F)` (R137): `max { a in 0..255 : F[a] ≤ x }`. -/
def locate (b : Config.Build) (e : Estimate) (s : State) : Except FaultCode Symbol :=
  if s.value.toNat < s.lo.toNat then .error .noSymbol
  else .ok (BitVec.ofNat 8 (lastAtMost (scaledValue b s) (e.F.take Config.NSYM) 0 0))

/-! ## Emit, Absorb, StraddleInc -/

/-- `Emit(v)` (R145). -/
def emit (b : Config.Build) (v : Bool) (s : State) : Except FaultCode State :=
  if s.outLen.toNat = b.obufBits then .error .sinkFull
  else .ok ((s.putObit s.outLen.toNat v).setOutLen (s.outLen.toNat + 1))

/-- `repeat n times: Emit(v)`. -/
def emitMany (b : Config.Build) (v : Bool) : Nat → State → Except FaultCode State
  | 0, s => .ok s
  | n + 1, s =>
    match emit b v s with
    | .error c => .error c
    | .ok s' => emitMany b v n s'

/-- `Emit(v)`, then STRADDLE times the complementary bit (R140, R141, R148). -/
def emitOwed (b : Config.Build) (v : Bool) (s : State) : Except FaultCode State :=
  match emit b v s with
  | .error c => .error c
  | .ok s' => emitMany b (!v) s.straddle.toNat s'

/-- `Absorb()` (R147): the next input bit, and the state with CURSOR advanced. -/
def absorb (s : State) : Except FaultCode (Bool × State) :=
  let i := s.cursor.toNat
  if i < s.runLen.toNat then .ok (s.ibit i, s.setCursor (i + 1))
  else if i < s.runLen.toNat + Config.PREC then .ok (false, s.setCursor (i + 1))
  else .error .sourceExhausted

/-- `StraddleInc()` (R151). -/
def straddleInc (b : Config.Build) (s : State) : Except FaultCode State :=
  if s.straddle.toNat = 2 ^ b.straddleW - 1 then .error .straddleOverflow
  else .ok (s.setStraddle (s.straddle.toNat + 1))

/-! ## Renormalization -/

/-- The three cases of a renormalization pass (R139). -/
inductive RenormCase where
  /-- LOW (R140). -/
  | low
  /-- HIGH (R141). -/
  | high
  /-- MID (R142). -/
  | mid
  deriving DecidableEq, Repr

/-- The case of a pass, tested in the order of R139; `none` stops the loop (R144). -/
def renormCase (l h : Nat) : Option RenormCase :=
  if h < Config.HALF then some .low
  else if Config.HALF ≤ l then some .high
  else if Config.QUARTER ≤ l ∧ h < Config.THREEQUARTERS then some .mid
  else none

/-- What a case subtracts from the bounds (R140 to R142, R146). -/
def RenormCase.offset : RenormCase → Nat
  | .low => 0
  | .high => Config.HALF
  | .mid => Config.QUARTER

/-- The encoder's part of a case (R140 to R142): the bits it emits, or the straddle it defers. -/
def caseEmit (b : Config.Build) (c : RenormCase) (s : State) : Except FaultCode State :=
  match c with
  | .low =>
    match emitOwed b false s with
    | .error e => .error e
    | .ok s' => .ok (s'.setStraddle 0)
  | .high =>
    match emitOwed b true s with
    | .error e => .error e
    | .ok s' => .ok (s'.setStraddle 0)
  | .mid => straddleInc b s

/-- The case's offset and then `Stretch()` on LO and HI, with its width check (R140 to R143). -/
def stretchEnc (b : Config.Build) (off : Nat) (s : State) : Except FaultCode State :=
  let l := 2 * (s.lo.toNat - off)
  let h := 2 * (s.hi.toNat - off) + 1
  if widthOk b l && widthOk b h then .ok (s.setInterval l h) else .error .intervalOverflow

/-- One pass of RenormEnc (R139). -/
def renormEncPass (b : Config.Build) (c : RenormCase) (s : State) : Except FaultCode State :=
  match caseEmit b c s with
  | .error e => .error e
  | .ok s' => stretchEnc b c.offset s'

/-- The loop of RenormEnc (R139), with a bound on the passes. -/
def renormEncLoop (b : Config.Build) : Nat → State → Except FaultCode State
  | 0, _ => .error .intervalOverflow
  | n + 1, s =>
    match renormCase s.lo.toNat s.hi.toNat with
    | none => .ok s
    | some c =>
      match renormEncPass b c s with
      | .error e => .error e
      | .ok s' => renormEncLoop b n s'

/-- `RenormEnc()` (R139 to R144). Every pass doubles the width, so REG_W passes are the most that can go through before
IntervalOverflow (R144); the bound is never reached (log entry 5). -/
def renormEnc (b : Config.Build) (s : State) : Except FaultCode State := renormEncLoop b (b.regW + 1) s

/-- The offset and then `Stretch()` in DECODE mode (R143, R146): VALUE takes the offset too and folds in the absorbed bit;
SourceExhausted comes before IntervalOverflow (R218). -/
def stretchDec (b : Config.Build) (off : Nat) (s : State) : Except FaultCode State :=
  match absorb s with
  | .error c => .error c
  | .ok (v, s') =>
    let l := 2 * (s.lo.toNat - off)
    let h := 2 * (s.hi.toNat - off) + 1
    let w := 2 * (s.value.toNat - off) + v.toNat
    if widthOk b l && widthOk b h && widthOk b w then .ok ((s'.setInterval l h).setValue w)
    else .error .intervalOverflow

/-- The loop of RenormDec (R146), with a bound on the passes. -/
def renormDecLoop (b : Config.Build) : Nat → State → Except FaultCode State
  | 0, _ => .error .intervalOverflow
  | n + 1, s =>
    match renormCase s.lo.toNat s.hi.toNat with
    | none => .ok s
    | some c =>
      match stretchDec b c.offset s with
      | .error e => .error e
      | .ok s' => renormDecLoop b n s'

/-- `RenormDec()` (R146), bounded as RenormEnc is (log entry 5). -/
def renormDec (b : Config.Build) (s : State) : Except FaultCode State := renormDecLoop b (b.regW + 1) s

/-! ## Start and end of a run -/

/-- `Flush()` (R148): STRADDLE keeps its incremented value; LO and HI are unchanged. -/
def flush (b : Config.Build) (s : State) : Except FaultCode State :=
  match straddleInc b s with
  | .error c => .error c
  | .ok s' => emitOwed b (decide (Config.QUARTER ≤ s.lo.toNat)) s'

/-- Fold the input bits 0..n-1 into a value, bits at positions ≥ `len` read as 0 (R149). -/
def foldInput (s : State) (len : Nat) : Nat → Nat
  | 0 => 0
  | n + 1 => 2 * foldInput s len n + (if n < len then s.ibit n else false).toNat

/-- The VALUE that `LoadValue()` loads from the first PREC bits of a stream of `len` bits (R149). -/
def loadedValue (s : State) (len : Nat) : Nat := foldInput s len Config.PREC

end Sys2Proof.Machine
end

