-- ==== Sys2Proof/Machine/Operands.lean ====
section
/-! DEFINITION. What an access or a command is aimed at: the address map of the host bus (R40, R50), and which commands
the current state and mode allow (R171). -/

namespace Sys2Proof.Machine

/-- What a word-aligned host address selects (R40, R50). -/
inductive Target where
  | cmd
  | status
  | config
  | inLen
  | outLen
  | cursor
  | sym
  | symCount
  | straddle
  | loL
  | loH
  | hiL
  | hiH
  | valL
  | valH
  | param
  /-- The IBUF word at a bus byte address. -/
  | ibuf (a : Nat)
  /-- The OBUF word at a bus byte address. -/
  | obuf (a : Nat)
  /-- A reserved address (R53). -/
  | reserved
  deriving DecidableEq, Repr

/-- The register at a word index of the register block (R40). -/
def registerAt : Nat → Target
  | 0 => .cmd
  | 1 => .status
  | 2 => .config
  | 3 => .inLen
  | 4 => .outLen
  | 5 => .cursor
  | 6 => .sym
  | 7 => .symCount
  | 8 => .straddle
  | 9 => .loL
  | 10 => .loH
  | 11 => .hiL
  | 12 => .hiH
  | 13 => .valL
  | 14 => .valH
  | 15 => .param
  | _ => .reserved

/-- The address map of R50, for a word-aligned address. -/
def targetOf (a : Addr) : Target :=
  if a.toNat < 0x40 then registerAt (a.toNat / 4)
  else if a.toNat < 0x10000 then .reserved
  else if a.toNat < 0x20000 then .ibuf a.toNat
  else if a.toNat < 0x30000 then .obuf a.toNat
  else .reserved

/-- `addr[1:0] ≠ 0` (R52). -/
def misaligned (a : Addr) : Bool := a.extractLsb' 0 2 != 0

/-- The address of STATUS, the only one the host may read while BUSY = 1 (R60). -/
def statusAddr : Addr := 0x004

/-- The entries of R171's table. -/
inductive Legality where
  /-- ok: the command runs. -/
  | ok
  /-- ill: IllegalCommand. -/
  | illegal
  /-- ign: ignored with no effect. -/
  | ignored
  deriving DecidableEq, Repr

/-- The column of R171's table for a word that matches no row. -/
def illegalWordLegality : RunState → Legality
  | .faulted => .ignored
  | _ => .illegal

/-- R171's table. -/
def legality : Instr → RunState → Mode → Legality
  | .nop, _, _ => .ok
  | .initEnc, _, _ => .ok
  | .initDec, _, _ => .ok
  | .encSym _, .active, .encode => .ok
  | .encSym _, .faulted, _ => .ignored
  | .encSym _, _, _ => .illegal
  | .decSym, .active, .decode => .ok
  | .decSym, .faulted, _ => .ignored
  | .decSym, _, _ => .illegal
  | .finish, .active, _ => .ok
  | .finish, .faulted, _ => .ignored
  | .finish, _, _ => .illegal

end Sys2Proof.Machine
end

