-- ==== Sys2Proof/Machine/Flags.lean ====
section
/-! DEFINITION. The status word (R41), the fault codes (R200), INPUT_DONE (R150), PARAM (R44), and the contents of every
host-visible register (R40). -/

namespace Sys2Proof.Machine

/-- STATUS[1:0] (R29). -/
def RunState.bits : RunState → BitVec 2
  | .idle => 0
  | .active => 1
  | .terminated => 2
  | .faulted => 3

/-- STATUS[2] (R30). -/
def Mode.bit : Mode → Bool
  | .encode => false
  | .decode => true

/-- STATUS[11:8] (R200). -/
def FaultCode.code : FaultCode → BitVec 4
  | .noFault => 0
  | .zeroInterval => 1
  | .modelInconsistency => 2
  | .intervalOverflow => 3
  | .straddleOverflow => 4
  | .countOverflow => 5
  | .tableFull => 6
  | .sinkFull => 7
  | .sourceExhausted => 8
  | .noSymbol => 9
  | .illegalCommand => 10
  | .badConfig => 11
  | .badLength => 12
  | .overrun => 13
  | .busError => 14

/-- INPUT_DONE (R41, R150). -/
def State.inputDone (s : State) : Bool :=
  s.mode == .decode && (s.runState == .active || s.runState == .terminated) && decide (s.runLen.toNat ≤ s.cursor.toNat)

/-- STATUS (R41). -/
def State.status (s : State) : Word :=
  (0 : BitVec 20) ++ s.fault.code ++ (0 : BitVec 2) ++ BitVec.ofBool s.symValid ++ BitVec.ofBool s.inputDone ++
    BitVec.ofBool s.busy ++ BitVec.ofBool s.mode.bit ++ s.runState.bits

/-- PARAM of a build (R44). -/
def paramWord (b : Config.Build) : Word :=
  BitVec.ofNat 32 (Config.PREC + 2 ^ 8 * b.regW + (if b.probArith = .binary64 then 2 ^ 16 else 0) +
    (if b.floorRecord = .ensure then 2 ^ 17 else 0) + 2 ^ 18 * Config.M)

/-- What a host read of a target returns (R40, R180); `none` for a reserved address. CMD reads 0. -/
def State.readTarget (s : State) : Target → Option Word
  | .cmd => some 0
  | .status => some s.status
  | .config => some (s.maxord.setWidth 32)
  | .inLen => some (s.inLen.setWidth 32)
  | .outLen => some (s.outLen.setWidth 32)
  | .cursor => some s.cursor
  | .sym => some (s.sym.setWidth 32)
  | .symCount => some s.symCount
  | .straddle => some s.straddle
  | .loL => some (s.lo.extractLsb' 0 32)
  | .loH => some (s.lo.extractLsb' 32 32)
  | .hiL => some (s.hi.extractLsb' 0 32)
  | .hiH => some (s.hi.extractLsb' 32 32)
  | .valL => some (s.value.extractLsb' 0 32)
  | .valH => some (s.value.extractLsb' 32 32)
  | .param => some (paramWord Config.build)
  | .ibuf a => some (s.ibufWord a)
  | .obuf a => some (s.obufWord a)
  | .reserved => none

end Sys2Proof.Machine
end

