-- ==== Sys2Proof/Machine/RunControl.lean ====
section
/-! DEFINITION. The run-control commands NOP, INIT_ENC, INIT_DEC and FINISH (R172 to R174, R177), and how a command is
issued under the legality table of R171. -/

namespace Sys2Proof.Machine

/-- Issue a command (R171): ignored, IllegalCommand, or its rule; a fault inside its rule is raised (R216). -/
def issue (l : Legality) (s : State) (body : State → Except FaultCode State) : Host.Outcome State Fault Refusal :=
  match l with
  | .ignored => .next s
  | .illegal => .next (s.raise .illegalCommand)
  | .ok =>
    match body s with
    | .ok t => .next t
    | .error c => .next (s.raise c)

/-- `CONFIG.MAXORD ∈ {2, 3}` (R42, R173). -/
def State.configOk (s : State) : Bool := decide (2 ≤ s.maxord.toNat)

/-- The rule of INIT_ENC (R173). -/
def initEncRule (s : State) : Except FaultCode State :=
  if s.configOk then .ok (s.startRun .encode 0 0 0) else .error .badConfig

/-- The rule of INIT_DEC (R174): BadLength before BadConfig. -/
def initDecRule (b : Config.Build) (s : State) : Except FaultCode State :=
  if b.ibufBits < s.inLen.toNat then .error .badLength
  else if s.configOk then .ok (s.startRun .decode (loadedValue s s.inLen.toNat) Config.PREC s.inLen)
  else .error .badConfig

/-- The rule of FINISH (R177). -/
def finishRule (b : Config.Build) (s : State) : Except FaultCode State :=
  match s.mode with
  | .decode => .ok s.terminate
  | .encode =>
    match flush b s with
    | .error c => .error c
    | .ok s' => .ok s'.terminate

/-- NOP (R172). -/
def execNop (s : State) : Host.Outcome State Fault Refusal :=
  issue (legality .nop s.runState s.mode) s (fun s => .ok s)

/-- INIT_ENC (R173). -/
def execInitEnc (s : State) : Host.Outcome State Fault Refusal :=
  issue (legality .initEnc s.runState s.mode) s initEncRule

/-- INIT_DEC (R174). -/
def execInitDec (s : State) : Host.Outcome State Fault Refusal :=
  issue (legality .initDec s.runState s.mode) s (initDecRule Config.build)

/-- FINISH (R177). -/
def execFinish (s : State) : Host.Outcome State Fault Refusal :=
  issue (legality .finish s.runState s.mode) s (finishRule Config.build)

/-- A word that matches no row of R71 (R171, R178). -/
def execIllegalWord (s : State) : Host.Outcome State Fault Refusal :=
  issue (illegalWordLegality s.runState) s (fun s => .ok s)

end Sys2Proof.Machine
end

