-- ==== Sys2Proof/Machine/SymbolCommands.lean ====
section
/-! DEFINITION. The symbol commands ENC_SYM and DEC_SYM (R175, R176): estimate, narrow, observe, renormalize, in this order in
both directions (R124). -/

namespace Sys2Proof.Machine

/-- Narrow to a symbol and Observe it: the part ENC_SYM and DEC_SYM share (R124, R138). -/
def codeSymbol (b : Config.Build) (e : Estimate) (a : Symbol) (s : State) : Except FaultCode State :=
  match narrow b e a s with
  | .error c => .error c
  | .ok s' => observe b a s'

/-- The rule of ENC_SYM (R175). -/
def encSymRule (b : Config.Build) (a : Symbol) (s : State) : Except FaultCode State :=
  match codeSymbol b (estimate b s.table s.hist) a s with
  | .error c => .error c
  | .ok s' =>
    match renormEnc b s' with
    | .error c => .error c
    | .ok s'' => .ok s''.countSymbol

/-- The rule of DEC_SYM (R176). -/
def decSymRule (b : Config.Build) (s : State) : Except FaultCode State :=
  match locate b (estimate b s.table s.hist) s with
  | .error c => .error c
  | .ok a =>
    match codeSymbol b (estimate b s.table s.hist) a s with
    | .error c => .error c
    | .ok s' =>
      match renormDec b s' with
      | .error c => .error c
      | .ok s'' => .ok (s''.setSym a).countSymbol

/-- ENC_SYM s (R175). -/
def execEncSym (a : Symbol) (s : State) : Host.Outcome State Fault Refusal :=
  issue (legality (.encSym a) s.runState s.mode) s (encSymRule Config.build a)

/-- DEC_SYM (R176). -/
def execDecSym (s : State) : Host.Outcome State Fault Refusal :=
  issue (legality .decSym s.runState s.mode) s (decSymRule Config.build)

end Sys2Proof.Machine
end

