-- ==== Sys2Proof/Machine/Dispatch.lean ====
section
/-! DEFINITION. The dispatch of R171: one arm per command of the opcode table. -/

namespace Sys2Proof.Machine

/-- The meaning of a command (R171 to R177). -/
def exec (i : Instr) (s : State) : Host.Outcome State Fault Refusal :=
  match i with
  | .nop => Sys2Proof.Machine.execNop s
  | .initEnc => Sys2Proof.Machine.execInitEnc s
  | .initDec => Sys2Proof.Machine.execInitDec s
  | .encSym a => Sys2Proof.Machine.execEncSym a s
  | .decSym => Sys2Proof.Machine.execDecSym s
  | .finish => Sys2Proof.Machine.execFinish s

end Sys2Proof.Machine
end

