-- ==== Sys2Proof/Machine/CoreStep.lean ====
section
/-! DEFINITION. The core's step (R170, R171). -/

namespace Sys2Proof.Machine

/-- `Execute(w)` (R171): the command of the row w matches, or the illegal word's rule. -/
def executeWord (w : Word) (s : State) : Host.Outcome State Fault Refusal :=
  match decodeWord w with
  | .ok i => exec i s
  | .error _ => execIllegalWord s

/-- `PEND <- no command; BUSY <- 0` after a step (R170). -/
def retireOutcome : Host.Outcome State Fault Refusal → Host.Outcome State Fault Refusal
  | .next t => .next t.retire
  | .fault f => .fault f
  | .refused r => .refused r

/-- `CoreStep()` (R170), enabled only when BUSY = 1; otherwise the core's turn changes nothing. -/
def coreStep (s : State) : Host.Outcome State Fault Refusal :=
  match s.pend with
  | none => .next s
  | some w => retireOutcome (executeWord w s)

end Sys2Proof.Machine
end

