-- ==== Sys2Proof/Machine/HostMoves.lean ====
section
/-! DEFINITION. The host's moves (R58, R60, R170, R179, R180, R213, R214, R230), in the precedence of R218. -/

namespace Sys2Proof.Machine

/-- An aligned host write with BUSY = 0 (R170, R179); `none` where it raises BusError: a read-only register, OBUF or a
reserved address (R53). -/
def State.writeTarget (s : State) (v : Word) : Target → Option State
  | .cmd => some (s.latch v)
  | .config => some (s.setConfig v)
  | .inLen => some (s.setInLen v)
  | .ibuf a => some (s.putIbufWord a v)
  | .status | .outLen | .cursor | .sym | .symCount | .straddle => none
  | .loL | .loH | .hiL | .hiH | .valL | .valH | .param => none
  | .obuf _ => none
  | .reserved => none

/-- `MemWrite(a, 4, v)`: Overrun while BUSY = 1 (R213), BusError (R214), or the effect of R179. -/
def hostWrite (a : Addr) (v : Word) (s : State) : State :=
  if s.busy then s.raiseHost .overrun
  else if misaligned a then s.raiseHost .busError
  else (s.writeTarget v (targetOf a)).getD (s.raiseHost .busError)

/-- `MemRead(a, 4)`: an unspecified word while BUSY = 1, but for STATUS (R60); BusError, which reads 0 (R214); or the
contents of R180. -/
def hostRead (a : Addr) (s : State) : State :=
  if s.busy then (if a = statusAddr then s.deliver s.status else s.deliverFree)
  else if misaligned a then (s.raiseHost .busError).deliver 0
  else
    match s.readTarget (targetOf a) with
    | some w => s.deliver w
    | none => (s.raiseHost .busError).deliver 0

/-- A host move (R247). -/
def hostMove : HostMove → State → State
  | .write a v, s => hostWrite a v s
  | .read a, s => hostRead a s
  | .reset, s => s.assertReset

end Sys2Proof.Machine
end

