-- ==== Sys2Proof/Machine/Step.lean ====
section
/-! DEFINITION. One step of the two-agent system (R20, R61): the next event of the agenda. -/

namespace Sys2Proof.Machine

/-- One step: the next event of the agenda. With none left, the core takes its turn (R240). -/
def step (s : State) : Host.Outcome State Fault Refusal :=
  match s.agenda with
  | [] => coreStep s
  | .core :: l => coreStep (s.setAgenda l)
  | .host m :: l => .next (hostMove m (s.setAgenda l))

/-- The state with a command word latched (R170) and the core's turn next: what a host write of the word to CMD leaves.
Every command is 32 bits (R70), so `nbits` changes nothing. -/
def State.withFetchWord (s : State) (_nbits w : Nat) : State :=
  (s.latch (BitVec.ofNat 32 w)).setAgenda (.core :: s.agenda)

end Sys2Proof.Machine
end

