-- ==== Sys2Proof/Safety.lean ====
section
/-! DEFINITION. What statements call a sound state: the canonical forms of the model's data, the invariants of R39 in the
form in which every step keeps them (log entries 7 and 8), and the legal values of the registers. -/

namespace Sys2Proof

/-- A record is canonical, and satisfies R39(a), R39(c) and the width of R121. -/
structure CtxRecord.Sound (b : Config.Build) (r : CtxRecord) : Prop where
  sorted    : Machine.Assoc.Sorted BitVec.toNat r.counts
  positive  : ∀ e ∈ r.counts, 0 < e.2
  total_eq  : r.total = (Machine.alphabet.map r.cnt).sum
  total_pos : 1 ≤ r.total
  total_le  : r.total ≤ Machine.countMax b

/-- The table is canonical, its contexts are no longer than w (R36, R105), and its records are sound. -/
structure Table.Sound (b : Config.Build) (w : Nat) (t : Table) : Prop where
  sorted  : Machine.Assoc.Sorted contextCode t
  short   : ∀ e ∈ t, e.1.length ≤ w
  records : ∀ e ∈ t, e.2.Sound b

/-- The symbol is observed at order 0. -/
def Table.Observed (t : Table) (a : Symbol) : Prop := ∃ r, t.record? [] = some r ∧ 0 < r.cnt a

/-- What any record has observed, order 0 has observed: Observe stops only where the symbol is counted (R115 to R119). -/
def Table.Nested (t : Table) : Prop := ∀ e ∈ t, ∀ a, 0 < e.2.cnt a → t.Observed a

/-- The table holds at most CTX_CAP records (R122). -/
def Table.Fits (b : Config.Build) (t : Table) : Prop := ∀ n, b.ctxCap = some n → t.length ≤ n

end Sys2Proof

namespace Sys2Proof.Machine

/-- A buffer is canonical, and lists only the 65536 byte addresses of its window (R50). -/
structure Memory.Sound (base : Nat) (m : Memory) : Prop where
  wf     : m.wf
  window : ∀ e ∈ m, base ≤ e.1 ∧ e.1 < base + 0x10000

/-- The renormalizer has stopped on this interval (R144): no case of R139 holds. -/
def Settled (l h : Nat) : Prop :=
  l < Config.HALF ∧ Config.HALF ≤ h ∧ (l < Config.QUARTER ∨ Config.THREEQUARTERS ≤ h)

/-- A run has begun and was not aborted. -/
def State.running (s : State) : Prop := s.runState = .active ∨ s.runState = .terminated

/-- What holds outside FAULTED (R39, U6 to U8). R39(e) is `value`: VALUE ≤ HI is kept until order 0 has observed all 256
symbols, from where on R104 to R110 no longer give F[256] = 1 (log entry 7). -/
structure State.Live (s : State) : Prop where
  runW      : 2 ≤ s.runW.toNat
  table     : s.table.Sound Config.build s.runW.toNat
  nested    : s.table.Nested
  fits      : s.table.Fits Config.build
  hist      : s.hist.length ≤ s.runW.toNat
  runLen    : s.runLen.toNat ≤ Config.build.ibufBits
  outLen    : s.outLen.toNat ≤ Config.build.obufBits
  sym       : s.symValid = false → s.sym = 0
  encode    : s.mode = .encode → s.value = 0 ∧ s.cursor = 0 ∧ s.runLen = 0 ∧ s.symValid = false
  decode    : s.mode = .decode → s.straddle = 0 ∧ s.outLen = 0 ∧
                Config.PREC ≤ s.cursor.toNat ∧ s.cursor.toNat ≤ s.runLen.toNat + Config.PREC
  idle      : s.runState = .idle → s.mode = .encode ∧ s.lo = 0 ∧ s.hi = 0 ∧ s.table = [] ∧ s.hist = []
  settled   : s.running → Settled s.lo.toNat s.hi.toNat
  value     : s.running → s.mode = .decode → s.lo.toNat ≤ s.value.toNat ∧
                ((∃ a, ¬ s.table.Observed a) → s.value.toNat ≤ s.hi.toNat)

/-- The invariant every step keeps. -/
structure State.Inv (s : State) : Prop where
  ibuf     : Memory.Sound ibufBase s.ibuf
  obuf     : Memory.Sound obufBase s.obuf
  fault    : s.fault = .noFault ↔ s.runState ≠ .faulted
  symValid : s.runState = .faulted → s.symValid = false
  live     : s.runState ≠ .faulted → s.Live

/-- A state of a run that the machine's step reaches from reset, the host's events having been put on the agenda at
reset. -/
inductive Reachable : State → Prop where
  | reset (l : List Event) : Reachable (State.reset.setAgenda l)
  | step {s t : State} : Reachable s → step s = .next t → Reachable t

/-- A command ended in a next state without a fault. -/
def Completes (i : Instr) (s t : State) : Prop := exec i s = .next t ∧ t.runState ≠ .faulted

end Sys2Proof.Machine
end

