-- ==== Sys2Proof/Certificates/Slice0/Obligations.lean ====
section
/-! DEFINITION. The statements for the provers: what the numbered rules of spec/ say the machine does. Each docstring names the
rules; a statement that rests on a choice of the model says so. -/

open Sys2Proof Sys2Proof.Machine

/-! ## Encoding -/

/-- R71 and R72: the decoder reads a command exactly from the words of its row, ENC_SYM's operand being w[7:0], and at
most one row matches any word. -/
def Obligations.DecodeFollowsOpcodeMap : Prop :=
  (∀ (w : Word) (i : Instr), decodeWord w = .ok i ↔
    (w = 0x00000000 ∧ i = .nop) ∨ (w = 0x10000000 ∧ i = .initEnc) ∨ (w = 0x20000000 ∧ i = .initDec) ∨
    (w &&& 0xFFFFFF00 = 0x30000000 ∧ i = .encSym (w.extractLsb' 0 8)) ∨
    (w = 0x40000000 ∧ i = .decSym) ∨ (w = 0x50000000 ∧ i = .finish)) ∧
  ∀ (w : Word) (r r' : OpRow), r ∈ opcodeMap → r' ∈ opcodeMap → r.hits w = true → r'.hits w = true → r = r'

/-- Decode and encode agree in both directions, for every instruction and operand and every word (R70 to R72): each
command has one word, and the decoder reads it back. -/
def Obligations.DecodeEncodeAgree : Prop :=
  ∀ (i : Instr) (w : Word), i.wf = true ∧ (decodeWord w = .ok i ↔ w = encode i)

/-- R73 and R178: a word with OP 0x6 to 0xF, with RSV nonzero, or other than ENC_SYM with SYM8 nonzero, is illegal, and no
other word is; executing it raises IllegalCommand outside FAULTED and is ignored in FAULTED. -/
def Obligations.IllegalWordsRaiseOrAreIgnored : Prop :=
  ∀ (w : Word) (s : State),
    let illegal := 6 ≤ (w.extractLsb' 28 4).toNat ∨ w.extractLsb' 8 20 ≠ 0 ∨
      (w.extractLsb' 28 4 ≠ 3 ∧ w.extractLsb' 0 8 ≠ 0)
    ((∃ e, decodeWord w = .error e) ↔ illegal) ∧
    (illegal → s.runState ≠ .faulted → executeWord w s = .next (s.raise .illegalCommand)) ∧
    (illegal → s.runState = .faulted → executeWord w s = .next s)

/-- Sanity: the words of R71, and a few illegal ones, as the decoder reads them. -/
def Obligations.SampleWordsDecode : Prop :=
  decodeWord 0x00000000 = .ok .nop ∧ decodeWord 0x10000000 = .ok .initEnc ∧ decodeWord 0x20000000 = .ok .initDec ∧
  decodeWord 0x30000041 = .ok (.encSym 65) ∧ decodeWord 0x300000FF = .ok (.encSym 255) ∧
  decodeWord 0x40000000 = .ok .decSym ∧ decodeWord 0x50000000 = .ok .finish ∧
  decodeWord 0x60000000 = .error .reservedOp ∧ decodeWord 0x10000100 = .error .reservedBits ∧
  decodeWord 0x00000001 = .error .strayOperand

/-! ## Steps -/

/-- R170: on the core's turn with a command word latched, the step executes the word on the state and then empties PEND,
which clears BUSY; the turn is the next event of the agenda, or the agenda is empty (the model's schedule, log entry 1).
Executing a word that decodes is its command's meaning; a word that matches no row raises IllegalCommand, or in FAULTED
changes nothing but BUSY (R178). -/
def Obligations.StepRunsDecodedCommand : Prop :=
  ∀ (s u : State) (w : Word), s.pend = some w →
    let turn := { s with agenda := .core :: s.agenda }
    (executeWord w s = .next u →
      step turn = .next { u with pend := none } ∧ (s.agenda = [] → step s = .next { u with pend := none })) ∧
    (∀ i, decodeWord w = .ok i → executeWord w s = exec i s) ∧
    (∀ e, decodeWord w = .error e → s.runState = .faulted → step turn = .next { s with pend := none }) ∧
    (∀ e, decodeWord w = .error e → s.runState ≠ .faulted → step turn = .next (s.raise .illegalCommand))

/-- R20 and R61: a host write, a host read and an assertion of RESET are performed when they are the next event, whatever
the core has latched, and hostMove is the same three; the core's turn
changes nothing while BUSY = 0, and with no event to come and BUSY = 0 the machine stands still (the model's schedule,
log entry 1). -/
def Obligations.StepPerformsHostMoves : Prop :=
  ∀ s : State,
    (∀ a v, step { s with agenda := .host (.write a v) :: s.agenda } = .next (hostWrite a v s)) ∧
    (∀ a, step { s with agenda := .host (.read a) :: s.agenda } = .next (hostRead a s)) ∧
    step { s with agenda := .host .reset :: s.agenda } = .next s.assertReset ∧
    (∀ m, step { s with agenda := .host m :: s.agenda } = .next (hostMove m s)) ∧
    (s.busy = false → step { s with agenda := .core :: s.agenda } = .next s) ∧
    (s.busy = false → s.agenda = [] → step s = .next s)

/-- R215: no step stops the machine; a fault is a next state. -/
def Obligations.EveryStepHasNextState : Prop := ∀ s : State, ∃ t, step s = .next t

/-! ## Reset and the invariant -/

/-- R46: every element at its reset value; nothing is written in IBUF or OBUF, so each of their bytes is a free draw (log
entry 2). -/
def Obligations.ResetValues : Prop :=
  let s := State.reset
  s.runState = .idle ∧ s.mode = .encode ∧ s.busy = false ∧ s.pend = none ∧ s.fault = .noFault ∧
  s.lo = 0 ∧ s.hi = 0 ∧ s.value = 0 ∧ s.straddle = 0 ∧ s.cursor = 0 ∧ s.runLen = 0 ∧ s.runW = 2 ∧ s.outLen = 0 ∧
  s.sym = 0 ∧ s.symValid = false ∧ s.symCount = 0 ∧ s.readTarget .config = some 2 ∧ s.readTarget .inLen = some 0 ∧
  s.table = [] ∧ s.hist = [] ∧
  ∀ a, s.ibufByte a = Config.freeByte 0 a ∧ s.obufByte a = Config.freeByte 0 a

/-- R230, R231 and R46: asserting RESET discards a latched command and gives every element its reset value, from every state;
STATUS, CONFIG and PARAM read as R231 says, and every bit of IBUF and OBUF is a fresh free draw. The model's choices: the
form of the RESET event (log entries 1 and 9) and the draw that the buffers' bytes come from (log entries 2 and 12). -/
def Obligations.ResetEventRestoresResetState : Prop :=
  ∀ (s : State) (l : List Event), s.agenda = .host .reset :: l → ∃ t, step s = .next t ∧
    t.runState = .idle ∧ t.mode = .encode ∧ t.pend = none ∧ t.busy = false ∧ t.fault = .noFault ∧
    t.lo = 0 ∧ t.hi = 0 ∧ t.value = 0 ∧ t.straddle = 0 ∧ t.cursor = 0 ∧ t.runLen = 0 ∧ t.runW = 2 ∧ t.outLen = 0 ∧
    t.sym = 0 ∧ t.symValid = false ∧ t.symCount = 0 ∧ t.maxord = 2 ∧ t.inLen = 0 ∧ t.table = [] ∧ t.hist = [] ∧
    t.readTarget .status = some 0x00000000 ∧ t.readTarget .config = some 0x00000002 ∧
    t.readTarget .param = some 0x000C4020 ∧
    ∀ a, t.ibufByte a = Config.freeByte s.draws a ∧ t.obufByte a = Config.freeByte s.draws a

/-- The invariant holds at reset. -/
def Obligations.InvariantHoldsAtReset : Prop := State.reset.Inv

/-- Every step keeps the invariant: the buffers stay canonical, FAULT is nonzero exactly in FAULTED (R32), T stays canonical
with `total = Σ cnt` and `total ≥ 1` in every record (R39 (a), (c)), counts within CNT_W bits (R121), contexts no longer
than RUN_W and |H| ≤ RUN_W (R105, R39 (d)), at most CTX_CAP records (R122), every observed symbol
observed at order 0 too, OUT_LEN ≤ OBUF_BITS, VALUE and CURSOR 0 in ENCODE and STRADDLE 0 in DECODE (U7), the interval renormalized in ACTIVE and TERMINATED (R144), so LO < HI there
(R39 (f)), and in a decode run LO ≤ VALUE, and VALUE ≤ HI until order 0 has observed all 256 symbols (R39 (e), as far as the
rules keep it: log entry 7). -/
def Obligations.StepKeepsInvariant : Prop := ∀ s t : State, s.Inv → step s = .next t → t.Inv

/-- R39 (f) and R144 from the invariant: in ACTIVE and TERMINATED, LO < HI and the range is at least QUARTER + 2. -/
def Obligations.SettledRangeIsLarge : Prop :=
  ∀ s : State, s.Inv → s.running → s.lo.toNat < s.hi.toNat ∧ 1073741824 + 2 ≤ s.range

/-! ## Legality and faults -/

/-- R171: the dispatch and legality of an executed word. In FAULTED every word but the exact NOP, INIT_ENC and INIT_DEC words
is ignored; elsewhere a word that matches no row, and a command that R171's table does not allow in the state and mode,
raise IllegalCommand; every other word runs its command. -/
def Obligations.ExecuteFollowsLegalityTable : Prop :=
  ∀ (w : Word) (s : State),
    (s.runState = .faulted → w ≠ 0x00000000 → w ≠ 0x10000000 → w ≠ 0x20000000 → executeWord w s = .next s) ∧
    (s.runState ≠ .faulted → (∃ e, decodeWord w = .error e) → executeWord w s = .next (s.raise .illegalCommand)) ∧
    (∀ i, decodeWord w = .ok i → s.runState ≠ .faulted →
      ((∃ a, i = .encSym a) ∧ ¬ (s.runState = .active ∧ s.mode = .encode) ∨
        i = .decSym ∧ ¬ (s.runState = .active ∧ s.mode = .decode) ∨
        i = .finish ∧ s.runState ≠ .active) →
      executeWord w s = .next (s.raise .illegalCommand)) ∧
    (∀ i, decodeWord w = .ok i → executeWord w s = exec i s)

/-- R47 and R216: what a raised fault leaves. STATE is FAULTED, FAULT is the code, SYM_VALID is 0 and PEND is empty; MODE,
CONFIG, IN_LEN and IBUF keep their values; STATUS reads 3 | MODE << 2 | FAULT << 8; every other element of R22 is a free
draw (taken at the fault: log entry 4). A command, or a host access outside FAULTED, that ends in FAULTED and changes the state has raised a fault so. -/
def Obligations.FaultLeavesDeterminedStatus : Prop :=
  (∀ (s : State) (c : FaultCode), c ≠ .noFault →
    let t := s.raise c
    t.runState = .faulted ∧ t.fault = c ∧ t.symValid = false ∧ t.pend = none ∧ t.busy = false ∧ t.inputDone = false ∧
    t.mode = s.mode ∧ t.maxord = s.maxord ∧ t.inLen = s.inLen ∧ (∀ a, t.ibufByte a = s.ibufByte a) ∧
    t.status = 0x00000003 ||| ((BitVec.ofBool s.mode.bit).setWidth 32 <<< 2) ||| (c.code.setWidth 32 <<< 8) ∧
    t.lo = Config.freeLo s.draws ∧ t.hi = Config.freeHi s.draws ∧ t.value = Config.freeValue s.draws ∧
    t.straddle = Config.freeStraddle s.draws ∧ t.cursor = Config.freeCursor s.draws ∧
    t.runLen = Config.freeRunLen s.draws ∧ t.runW = Config.freeRunW s.draws ∧ t.outLen = Config.freeOutLen s.draws ∧
    t.sym = Config.freeSym s.draws ∧ t.symCount = Config.freeSymCount s.draws ∧
    t.table = Config.freeTable s.draws ∧ t.hist = Config.freeHist s.draws ∧
    ∀ a, t.obufByte a = Config.freeByte s.draws a) ∧
  (∀ (i : Instr) (s t : State), exec i s = .next t → t.runState = .faulted → t ≠ s →
    ∃ c, c ≠ .noFault ∧ t = s.raise c) ∧
  ∀ (a : Addr) (v : Word) (s : State), s.runState ≠ .faulted →
    ((hostWrite a v s).runState = .faulted → ∃ c, c ≠ .noFault ∧ hostWrite a v s = s.raise c) ∧
    ((hostRead a s).runState = .faulted →
      ∃ c, c ≠ .noFault ∧ hostRead a s = { s.raise c with readData := (hostRead a s).readData })

/-- R200: the code of each fault, which command can raise which fault outside FAULTED, and which host access: Overrun comes
from a write while BUSY = 1 and BusError from an access while BUSY = 0. -/
def Obligations.FaultsComeFromTheirCommands : Prop :=
  (FaultCode.code .noFault = 0 ∧ FaultCode.code .zeroInterval = 1 ∧ FaultCode.code .modelInconsistency = 2 ∧
    FaultCode.code .intervalOverflow = 3 ∧ FaultCode.code .straddleOverflow = 4 ∧ FaultCode.code .countOverflow = 5 ∧
    FaultCode.code .tableFull = 6 ∧ FaultCode.code .sinkFull = 7 ∧ FaultCode.code .sourceExhausted = 8 ∧
    FaultCode.code .noSymbol = 9 ∧ FaultCode.code .illegalCommand = 10 ∧ FaultCode.code .badConfig = 11 ∧
    FaultCode.code .badLength = 12 ∧ FaultCode.code .overrun = 13 ∧ FaultCode.code .busError = 14 ∧
    ∀ c : FaultCode, c.code ≠ 15) ∧
  (∀ (i : Instr) (s t : State), exec i s = .next t → s.runState ≠ .faulted → t.runState = .faulted →
    match i with
    | .nop => False
    | .initEnc => t.fault = .badConfig
    | .initDec => t.fault ∈ [FaultCode.badConfig, .badLength]
    | .encSym _ => t.fault ∈ [FaultCode.zeroInterval, .modelInconsistency, .intervalOverflow, .straddleOverflow,
        .countOverflow, .tableFull, .sinkFull, .illegalCommand]
    | .decSym => t.fault ∈ [FaultCode.zeroInterval, .modelInconsistency, .intervalOverflow, .countOverflow, .tableFull,
        .sourceExhausted, .noSymbol, .illegalCommand]
    | .finish => t.fault ∈ [FaultCode.straddleOverflow, .sinkFull, .illegalCommand]) ∧
  ∀ (a : Addr) (v : Word) (s : State), s.runState ≠ .faulted →
    ((hostWrite a v s).runState = .faulted → (hostWrite a v s).fault = if s.busy then .overrun else .busError) ∧
    ((hostRead a s).runState = .faulted → s.busy = false ∧ (hostRead a s).fault = .busError)

/-- R29: reset leaves IDLE, an INIT that does not fault leaves ACTIVE, from any state, and FINISH leaves TERMINATED from
ACTIVE; nothing else changes STATE but a fault, which leaves FAULTED. -/
def Obligations.RunStateTransitions : Prop :=
  (∀ s : State, (hostMove .reset s).runState = .idle) ∧
  (∀ s t : State, Completes .initEnc s t ∨ Completes .initDec s t → t.runState = .active) ∧
  (∀ s t : State, Completes .finish s t → s.runState = .active ∧ t.runState = .terminated) ∧
  ∀ s t : State, step s = .next t → t.runState ≠ s.runState →
    (s.agenda.head? = some (.host .reset) ∧ t.runState = .idle) ∨
    (∃ w, s.pend = some w ∧ (decodeWord w = .ok .initEnc ∨ decodeWord w = .ok .initDec) ∧ t.runState = .active) ∨
    (∃ w, s.pend = some w ∧ decodeWord w = .ok .finish ∧ s.runState = .active ∧ t.runState = .terminated) ∨
    t.runState = .faulted

/-- R30: MODE is set to ENCODE by INIT_ENC and to DECODE by INIT_DEC, and is changed by nothing else except reset. -/
def Obligations.ModeChangesOnlyByInitOrReset : Prop :=
  (∀ s t : State, step s = .next t → t.mode ≠ s.mode →
    (s.agenda.head? = some (.host .reset) ∧ t.mode = .encode) ∨
    (∃ w, s.pend = some w ∧ decodeWord w = .ok .initEnc ∧ t.mode = .encode) ∨
    (∃ w, s.pend = some w ∧ decodeWord w = .ok .initDec ∧ t.mode = .decode)) ∧
  (∀ s t : State, Completes .initEnc s t → t.mode = .encode) ∧
  (∀ s t : State, Completes .initDec s t → t.mode = .decode)

/-- R217 and R219: in FAULTED a step keeps STATE and the first fault's code, unless it is RESET or the core executes an INIT
word; an INIT that faults replaces the code by BadConfig or BadLength. -/
def Obligations.FaultedKeepsFirstCode : Prop :=
  ∀ s t : State, s.runState = .faulted → step s = .next t →
    (t.runState = .faulted ∧ t.fault = s.fault) ∨
    (s.agenda.head? = some (.host .reset) ∧ t.runState = .idle ∧ t.fault = .noFault) ∨
    (∃ w, s.pend = some w ∧ (decodeWord w = .ok .initEnc ∨ decodeWord w = .ok .initDec) ∧
      ((t.runState = .active ∧ t.fault = .noFault) ∨
       (t.runState = .faulted ∧ (t.fault = .badConfig ∨ t.fault = .badLength))))

/-! ## NOP, INIT_ENC, INIT_DEC, FINISH -/

/-- R172: NOP does nothing, in every state. -/
def Obligations.NopChangesNothing : Prop := ∀ s : State, exec .nop s = .next s

/-- R173: INIT_ENC with CONFIG.MAXORD 2 or 3 starts an encode run, in every state, and changes nothing else; with another
MAXORD it raises BadConfig. -/
def Obligations.InitEncStartsRun : Prop :=
  ∀ s : State,
    (s.maxord = 2 ∨ s.maxord = 3 → exec .initEnc s = .next { s with
      runW := s.maxord, table := [], hist := [], lo := 0, hi := 4294967295, value := 0, straddle := 0, cursor := 0,
      runLen := 0, outLen := 0, symCount := 0, sym := 0, symValid := false, fault := .noFault, mode := .encode,
      runState := .active }) ∧
    (¬ (s.maxord = 2 ∨ s.maxord = 3) → exec .initEnc s = .next (s.raise .badConfig))

/-- R174 and R149: INIT_DEC with IN_LEN ≤ 524288 and CONFIG.MAXORD 2 or 3 starts a decode run, in every state, and changes
nothing else: VALUE is the unsigned integer of the first 32 stream bits, most significant first, bits at positions
≥ IN_LEN read as 0. A longer IN_LEN raises BadLength, whatever CONFIG holds, and then a bad MAXORD BadConfig. -/
def Obligations.InitDecStartsRun : Prop :=
  ∀ s : State,
    (s.inLen.toNat ≤ 524288 → (s.maxord = 2 ∨ s.maxord = 3) →
      ∃ v : Reg, exec .initDec s = .next { s with
        runW := s.maxord, table := [], hist := [], lo := 0, hi := 4294967295, value := v, straddle := 0, cursor := 32,
        runLen := s.inLen, outLen := 0, symCount := 0, sym := 0, symValid := false, fault := .noFault,
        mode := .decode, runState := .active } ∧
        v.toNat < 2 ^ 32 ∧
        ∀ i < 32, v.getLsbD (31 - i) = (decide (i < s.inLen.toNat) && (s.ibufWord 0x10000).getLsbD (31 - i))) ∧
    (524288 < s.inLen.toNat → exec .initDec s = .next (s.raise .badLength)) ∧
    (s.inLen.toNat ≤ 524288 → ¬ (s.maxord = 2 ∨ s.maxord = 3) → exec .initDec s = .next (s.raise .badConfig))

/-- R177 and R148: FINISH in an active decode run changes nothing but STATE. In an active encode run it increments STRADDLE
and emits bit 0 and then STRADDLE ones if LO < QUARTER, or bit 1 and then STRADDLE zeros otherwise, and sets STATE to
TERMINATED; LO, HI, every other output bit, every byte that holds no emitted bit and every other element are unchanged.
At STRADDLE = 2^32 - 1 it raises StraddleOverflow; otherwise, where OBUF lacks room for the bits, SinkFull. -/
def Obligations.FinishEndsRun : Prop :=
  (∀ s : State, s.runState = .active → s.mode = .decode → exec .finish s = .next { s with runState := .terminated }) ∧
  ∀ s : State, s.runState = .active → s.mode = .encode → s.outLen.toNat ≤ 524288 →
    (s.straddle.toNat = 4294967295 → exec .finish s = .next (s.raise .straddleOverflow)) ∧
    (s.straddle.toNat ≠ 4294967295 → 524288 < s.outLen.toNat + s.straddle.toNat + 2 →
      exec .finish s = .next (s.raise .sinkFull)) ∧
    (s.outLen.toNat + s.straddle.toNat + 2 ≤ 524288 →
      ∃ t, exec .finish s = .next t ∧
        t = { s with runState := .terminated, straddle := t.straddle, outLen := t.outLen, obuf := t.obuf } ∧
        t.straddle.toNat = s.straddle.toNat + 1 ∧ t.outLen.toNat = s.outLen.toNat + s.straddle.toNat + 2 ∧
        t.obit s.outLen.toNat = decide (1073741824 ≤ s.lo.toNat) ∧
        (∀ i, s.outLen.toNat < i → i < t.outLen.toNat → t.obit i = decide (s.lo.toNat < 1073741824)) ∧
        (∀ i, i < s.outLen.toNat ∨ t.outLen.toNat ≤ i → t.obit i = s.obit i) ∧
        ∀ a, (∀ i, s.outLen.toNat ≤ i → i < t.outLen.toNat → streamByte obufBase i ≠ a) →
          t.obufByte a = s.obufByte a)

/-! ## The host's accesses -/

/-- R54: stream bit i of IBUF is bit 31 - (i mod 32) of the word at 0x10000 + 4 * (i / 32), and OBUF has the same layout at
0x20000. -/
def Obligations.StreamBitIsWordBit : Prop :=
  ∀ (s : State) (i : Nat),
    s.ibit i = (s.ibufWord (0x10000 + 4 * (i / 32))).getLsbD (31 - i % 32) ∧
    s.obit i = (s.obufWord (0x20000 + 4 * (i / 32))).getLsbD (31 - i % 32)

/-- R179 and R63: an aligned host write to an IBUF word with BUSY = 0 makes the 32 stream bits of that word the bits
written, keeps every other stream bit, and changes nothing else; reading the word then delivers what was written. -/
def Obligations.IbufWriteSetsItsStreamBits : Prop :=
  ∀ (s : State) (a : Addr) (v : Word), s.busy = false → a.toNat % 4 = 0 → 0x10000 ≤ a.toNat → a.toNat < 0x20000 →
    let t := hostWrite a v s
    t = { s with ibuf := t.ibuf } ∧
    (∀ i, t.ibit i = if i / 32 = (a.toNat - 0x10000) / 4 then v.getLsbD (31 - i % 32) else s.ibit i) ∧
    (∀ x, (x < a.toNat ∨ a.toNat + 4 ≤ x) → t.ibufByte x = s.ibufByte x) ∧
    hostRead a t = { t with readData := some v }

/-- R170 and R179: with BUSY = 0 a host write of CMD latches the word, a write of CONFIG writes bits [1:0], a write of IN_LEN
writes bits [19:0], in every STATE, and nothing else changes. -/
def Obligations.RegisterWritesTakeEffect : Prop :=
  ∀ (s : State) (v : Word), s.busy = false →
    hostWrite 0x000 v s = { s with pend := some v } ∧
    hostWrite 0x008 v s = { s with maxord := v.setWidth 2 } ∧
    hostWrite 0x00C v s = { s with inLen := v.setWidth 20 }

/-- R40, R58 and R180: with BUSY = 0 a host read of each register and of each buffer word delivers its contents and changes
nothing else. -/
def Obligations.RegisterReadsDeliverContents : Prop :=
  ∀ s : State, s.busy = false →
    hostRead 0x000 s = { s with readData := some 0 } ∧
    hostRead 0x004 s = { s with readData := some s.status } ∧
    hostRead 0x008 s = { s with readData := some (s.maxord.setWidth 32) } ∧
    hostRead 0x00C s = { s with readData := some (s.inLen.setWidth 32) } ∧
    hostRead 0x010 s = { s with readData := some (s.outLen.setWidth 32) } ∧
    hostRead 0x014 s = { s with readData := some s.cursor } ∧
    hostRead 0x018 s = { s with readData := some (s.sym.setWidth 32) } ∧
    hostRead 0x01C s = { s with readData := some s.symCount } ∧
    hostRead 0x020 s = { s with readData := some s.straddle } ∧
    hostRead 0x024 s = { s with readData := some (s.lo.setWidth 32) } ∧
    hostRead 0x028 s = { s with readData := some ((s.lo >>> 32).setWidth 32) } ∧
    hostRead 0x02C s = { s with readData := some (s.hi.setWidth 32) } ∧
    hostRead 0x030 s = { s with readData := some ((s.hi >>> 32).setWidth 32) } ∧
    hostRead 0x034 s = { s with readData := some (s.value.setWidth 32) } ∧
    hostRead 0x038 s = { s with readData := some ((s.value >>> 32).setWidth 32) } ∧
    hostRead 0x03C s = { s with readData := some 0x000C4020 } ∧
    (∀ a : Addr, a.toNat % 4 = 0 → 0x10000 ≤ a.toNat → a.toNat < 0x20000 →
      hostRead a s = { s with readData := some (s.ibufWord a.toNat) }) ∧
    ∀ a : Addr, a.toNat % 4 = 0 → 0x20000 ≤ a.toNat → a.toNat < 0x30000 →
      hostRead a s = { s with readData := some (s.obufWord a.toNat) }

/-- R41: the fields of STATUS, with INPUT_DONE as R150 says; STATUS reads 0 at reset, and a host write of it with BUSY = 0
raises BusError. -/
def Obligations.StatusFieldsReadState : Prop :=
  State.reset.status = 0 ∧
  (∀ (s : State) (v : Word), s.busy = false →
    hostWrite 0x004 v s = s.raise (if s.runState = .faulted then s.fault else .busError)) ∧
  ∀ s : State,
    ((s.status.extractLsb' 0 2).toNat =
      match s.runState with | .idle => 0 | .active => 1 | .terminated => 2 | .faulted => 3) ∧
    (s.status.getLsbD 2 = true ↔ s.mode = .decode) ∧
    (s.status.getLsbD 3 = true ↔ s.pend ≠ none) ∧
    (s.status.getLsbD 4 = true ↔ s.mode = .decode ∧ (s.runState = .active ∨ s.runState = .terminated) ∧
      s.runLen.toNat ≤ s.cursor.toNat) ∧
    s.status.getLsbD 5 = s.symValid ∧
    s.status.extractLsb' 6 2 = 0 ∧
    s.status.extractLsb' 8 4 = s.fault.code ∧
    s.status.extractLsb' 12 20 = 0

/-- R52, R53 and R214: with BUSY = 0, a misaligned access, an access to a reserved address, and a write of a read-only register
or of OBUF raise BusError: a read returns 0, a write changes nothing of CONFIG, IN_LEN and IBUF, and the core is FAULTED
with the old code if it already was FAULTED. A write of reserved bits of CONFIG or IN_LEN raises nothing. -/
def Obligations.BadAccessRaisesBusError : Prop :=
  ∀ (s : State) (a : Addr) (v : Word), s.busy = false →
    let code := if s.runState = .faulted then s.fault else .busError
    let reserved := (0x40 ≤ a.toNat ∧ a.toNat < 0x10000) ∨ 0x30000 ≤ a.toNat
    let readOnly := (a.toNat < 0x40 ∧ a.toNat ≠ 0 ∧ a.toNat ≠ 0x8 ∧ a.toNat ≠ 0xC) ∨
      (0x20000 ≤ a.toNat ∧ a.toNat < 0x30000)
    (a.toNat % 4 ≠ 0 ∨ reserved → hostRead a s = { s.raise code with readData := some 0 }) ∧
    (a.toNat % 4 ≠ 0 ∨ reserved ∨ readOnly → hostWrite a v s = s.raise code) ∧
    (hostWrite 0x008 v s).runState = s.runState ∧ (hostWrite 0x00C v s).runState = s.runState

/-- R60 and R213: while BUSY = 1 a host write of any address changes nothing but raises Overrun, discarding the latched
command and keeping the old code if the core already was FAULTED; a read of STATUS delivers STATUS and changes nothing else; a
read of any other address delivers a free word and changes nothing else of the core. -/
def Obligations.BusyAccessOverrunsOrReadsFree : Prop :=
  ∀ (s : State) (a : Addr) (v : Word), s.busy = true →
    hostWrite a v s = s.raise (if s.runState = .faulted then s.fault else .overrun) ∧
    (hostWrite a v s).pend = none ∧
    hostRead 0x004 s = { s with readData := some s.status } ∧
    (a ≠ 0x004 → hostRead a s =
      { s with readData := some (Config.freeReadWord s.draws), draws := s.draws + 1 })

/-- R54, R28 and R242 as a rule of the whole machine: no core step writes IBUF, CONFIG or IN_LEN, or touches the host's own
record. -/
def Obligations.CoreNeverWritesHostData : Prop :=
  ∀ s t : State, coreStep s = .next t →
    t.ibuf = s.ibuf ∧ t.ibufDraw = s.ibufDraw ∧ t.maxord = s.maxord ∧ t.inLen = s.inLen ∧ t.readData = s.readData ∧
    t.agenda = s.agenda

/-- R27, R28 and R242: RUN_LEN and RUN_W change only when the core executes an INIT word, at a fault, or by RESET; an INIT
that completes copies them from IN_LEN and CONFIG.MAXORD. -/
def Obligations.RunParametersAreLatched : Prop :=
  ∀ s t : State, step s = .next t → (t.runLen ≠ s.runLen ∨ t.runW ≠ s.runW) →
    s.agenda.head? = some (.host .reset) ∨ t.runState = .faulted ∨
    (∃ w, s.pend = some w ∧ decodeWord w = .ok .initEnc ∧ t.runLen = 0 ∧ t.runW = s.maxord) ∨
    (∃ w, s.pend = some w ∧ decodeWord w = .ok .initDec ∧ t.runLen = s.inLen ∧ t.runW = s.maxord)

/-! ## The context model -/

/-- R104 and R107 to R110: EstimateOne starts with p = 1 and X empty at the context of all |H| symbols of the history, and
visits the records of the contexts of the last k symbols (R101), k = |H| down to 0; its passes on this hardware are the
uniform fallback, an unseen context, an escape with the exclusion set grown by exactly the observed symbols, and a
resolution, which is c / (C + 1) of the mass. -/
def Obligations.EstimatePasses : Prop :=
  (∀ (b : Config.Build) (t : Table) (h : Context) (s : Symbol),
    estimateOne b t h s =
      estimateFrom b s ((List.range (h.length + 1)).reverse.map (fun k => t.record? (h.drop (h.length - k)))) 1 []) ∧
  ∀ (b : Config.Build) (s : Symbol) (l : List (Option CtxRecord)) (r : CtxRecord) (p : ℚ) (x : List Symbol),
    b.probArith = .exact →
    let C := r.total - (x.map r.cnt).sum
    (x.length ≤ 255 → estimateFrom b s [] p x = p * (1 / (256 - x.length))) ∧
    estimateFrom b s (none :: l) p x = estimateFrom b s l p x ∧
    (r.Sound b → r.cnt s = 0 → ∃ x', (∀ a, a ∈ x' ↔ a ∈ x ∨ 0 < r.cnt a) ∧ (x.Nodup → x'.Nodup) ∧
      estimateFrom b s (some r :: l) p x = estimateFrom b s l (p * (1 / (C + 1))) x') ∧
    (0 < r.cnt s → estimateFrom b s (some r :: l) p x = p * ((r.cnt s / C) * (1 - 1 / (C + 1)))) ∧
    (0 < r.cnt s → 0 < C → estimateFrom b s (some r :: l) p x = p * (r.cnt s / (C + 1)))

/-- R107's example and V-M1: with T empty every symbol has probability 1/256, and F[n] = n/256. -/
def Obligations.ColdModelIsUniform : Prop :=
  ∀ (h : Context) (a : Symbol) (n : Nat), n ≤ 256 →
    (estimate Config.build [] h).p a = 1 / 256 ∧ (estimate Config.build [] h).f n = n / 256

/-- R112 and R113, as far as the algorithm has the properties R113 states: on a sound table every P[s] is positive, F is
strictly increasing, F[n+1] = F[n] + P[n] from F[0] = 0, and F[256] ≤ 1. F[256] = 1 holds exactly when some symbol is
observed in none of the visited records (log entry 7). -/
def Obligations.EstimateIsDistribution : Prop :=
  ∀ (b : Config.Build) (w : Nat) (t : Table) (h : Context), b.probArith = .exact → t.Sound b w →
    let e := estimate b t h
    (∀ a : Symbol, 0 < e.p a ∧ e.p a = estimateOne b t h a) ∧
    e.f 0 = 0 ∧ (∀ a : Symbol, e.f (a.toNat + 1) = e.f a.toNat + e.p a ∧ e.f a.toNat < e.f (a.toNat + 1)) ∧
    e.f 256 ≤ 1 ∧
    (e.f 256 = 1 ↔ ∃ a : Symbol, ∀ k ≤ h.length, ∀ r, t.record? (ctx h k) = some r → r.cnt a = 0)

/-- R113 as it is written: F[256] = 1, every P[s] > 0 and F strictly increasing, for every sound table. It is false: when
order 0 has observed all 256 symbols, the escape mass of order 0 goes to no symbol and F[256] < 1 (log entry 7). -/
def Obligations.EstimateSumsToOneAlways : Prop :=
  ∀ (b : Config.Build) (w : Nat) (t : Table) (h : Context), b.probArith = .exact → t.Sound b w → h.length ≤ w →
    (estimate b t h).f 256 = 1 ∧ (∀ s : Symbol, 0 < (estimate b t h).p s) ∧
    ∀ s : Symbol, (estimate b t h).f s.toNat < (estimate b t h).f (s.toNat + 1)

/-- R115 to R119: what a completed Observe does to every record. Orders above and at the longest context that already holds
s are updated, from the longest down: an unseen context is created with total 1 and cnt[s] = 1, a seen one without s gets
cnt[s] = 1 and total + 1, the first that holds s gets cnt[s] + 1 and total + 1, and no shorter order is touched; where no
context holds s, order 0 is counted once more (R116). Contexts that are no suffix of H are untouched. -/
def Obligations.ObserveUpdatesRecords : Prop :=
  ∀ (h : Context) (s : Symbol) (t t' : Table), observeFrom Config.build h s (h.length + 1) t = .ok t' →
    let holds := fun k => ∃ r, t.record? (ctx h k) = some r ∧ r.cnt s ≠ 0
    (∀ c, (∀ k ≤ h.length, c ≠ ctx h k) → t'.record? c = t.record? c) ∧
    ∀ k ≤ h.length,
      ((∃ j, k < j ∧ j ≤ h.length ∧ holds j) → t'.record? (ctx h k) = t.record? (ctx h k)) ∧
      ((¬ ∃ j, k < j ∧ j ≤ h.length ∧ holds j) →
        let n := if k = 0 ∧ ¬ holds 0 then 2 else 1
        ∃ r', t'.record? (ctx h k) = some r' ∧
          match t.record? (ctx h k) with
          | none => r'.total = n ∧ ∀ a, r'.cnt a = if a = s then n else 0
          | some r => r'.total = r.total + n ∧ ∀ a, r'.cnt a = if a = s then r.cnt s + n else r.cnt a)

/-- R121 and R122, for every build: Observe raises CountOverflow instead of writing when a count or a total would pass the
limit 2^CNT_W - 1, at each order and at order -1, and TableFull instead of creating a record when T holds CTX_CAP records;
with CTX_CAP unbounded it never raises TableFull. -/
def Obligations.ObserveLimits : Prop :=
  ∀ (b : Config.Build) (h : Context) (s : Symbol) (k : Nat) (t : Table),
    (∀ n, t.record? (ctx h k) = none → b.ctxCap = some n → n ≤ t.length →
      observeFrom b h s (k + 1) t = .error .tableFull) ∧
    (b.ctxCap = none → observeFrom b h s k t ≠ .error .tableFull) ∧
    (∀ r, t.record? (ctx h k) = some r → (2 ^ b.cntW - 1 < r.cnt s + 1 ∨ 2 ^ b.cntW - 1 < r.total + 1) →
      observeFrom b h s (k + 1) t = .error .countOverflow) ∧
    (∀ r, b.floorRecord = .increment → t.record? [] = some r →
      (2 ^ b.cntW - 1 < r.cnt s + 1 ∨ 2 ^ b.cntW - 1 < r.total + 1) →
      observeFrom b h s 0 t = .error .countOverflow)

/-- R120: the slide keeps the last w symbols of the history followed by s. -/
def Obligations.SlideKeepsLastSymbols : Prop :=
  ∀ (w : Nat) (h : Context) (s : Symbol), 1 ≤ w → h.length ≤ w →
    slide w h s = (h ++ [s]).drop (h.length + 1 - w) ∧ (slide w h s).length = min w (h.length + 1)

/-- R36 and R39 (b): within a run no command removes a record or lowers a count or a total. -/
def Obligations.CountsNeverFallWithinRun : Prop :=
  ∀ (i : Instr) (s t : State), Completes i s t → i ≠ .initEnc → i ≠ .initDec →
    ∀ c r, s.table.record? c = some r →
      ∃ r', t.table.record? c = some r' ∧ r.total ≤ r'.total ∧ ∀ a, r.cnt a ≤ r'.cnt a

/-! ## The arithmetic codec -/

/-- R133 to R136 and R134: Narrow on this hardware: ModelInconsistency on P[s] = 0, IntervalOverflow on a value past 2^64 - 1,
ZeroInterval exactly when floor(r * P[s]) = 0 (that is, P[s] < 1/r), and otherwise the new interval and nothing else. -/
def Obligations.NarrowOutcomes : Prop :=
  ∀ (e : Estimate) (a : Symbol) (s : State), 0 ≤ e.p a → s.lo.toNat ≤ s.hi.toNat →
    let r : ℚ := s.hi.toNat + 1 - s.lo.toNat
    let l := s.lo.toNat + ⌈r * e.f a.toNat⌉₊
    let h := l + ⌊r * e.p a⌋₊
    (e.p a = 0 → narrow Config.build e a s = .error .modelInconsistency) ∧
    (e.p a ≠ 0 → 2 ^ 64 - 1 < h → narrow Config.build e a s = .error .intervalOverflow) ∧
    (e.p a ≠ 0 → h ≤ 2 ^ 64 - 1 → e.p a < 1 / r → narrow Config.build e a s = .error .zeroInterval) ∧
    (h ≤ 2 ^ 64 - 1 → 1 / r ≤ e.p a →
      narrow Config.build e a s = .ok { s with lo := BitVec.ofNat 64 l, hi := BitVec.ofNat 64 h })

/-- R133's corner cases (b) and (c): on a sound table the intervals of a and a + 1 abut or share one integer, and the new LO is
the old one exactly for symbol 0. -/
def Obligations.AdjacentIntervalsAbut : Prop :=
  ∀ (w : Nat) (t : Table) (h : Context) (a : Symbol) (s : State), t.Sound Config.build w →
    s.lo.toNat ≤ s.hi.toNat →
    let e := estimate Config.build t h
    (a.toNat < 255 → narrowedHi Config.build e a s + 1 = narrowedLo Config.build e (a + 1) s ∨
      narrowedHi Config.build e a s = narrowedLo Config.build e (a + 1) s) ∧
    (narrowedLo Config.build e a s = s.lo.toNat ↔ a = 0)

/-- R137: Locate raises NoSymbol when VALUE < LO; otherwise it returns the largest symbol a with F[a] ≤ x, which on a sound
table with x < F[256] is the only symbol with F[a] ≤ x < F[a] + P[a]. -/
def Obligations.LocateFindsTheBucket : Prop :=
  ∀ (w : Nat) (t : Table) (h : Context) (s : State), t.Sound Config.build w → s.lo.toNat ≤ s.hi.toNat →
    let e := estimate Config.build t h
    let x : ℚ := (s.value.toNat - s.lo.toNat) / (s.hi.toNat + 1 - s.lo.toNat)
    (s.value.toNat < s.lo.toNat → locate Config.build e s = .error .noSymbol) ∧
    (s.lo.toNat ≤ s.value.toNat → ∃ a, locate Config.build e s = .ok a ∧ e.f a.toNat ≤ x ∧
      (∀ c : Symbol, e.f c.toNat ≤ x → c.toNat ≤ a.toNat) ∧
      (x < e.f 256 → x < e.f a.toNat + e.p a ∧
        ∀ c : Symbol, e.f c.toNat ≤ x → x < e.f c.toNat + e.p c → c = a))

/-- R138: after the decoder narrows to the located symbol, LO ≤ VALUE; and VALUE ≤ HI where x < F[256], which R113 takes for
granted (log entry 7). -/
def Obligations.DecodeNarrowKeepsValueInside : Prop :=
  ∀ (w : Nat) (tb : Table) (h : Context) (s t : State) (a : Symbol), tb.Sound Config.build w →
    s.lo.toNat ≤ s.hi.toNat →
    locate Config.build (estimate Config.build tb h) s = .ok a →
    narrow Config.build (estimate Config.build tb h) a s = .ok t →
    t.value = s.value ∧ t.lo.toNat ≤ t.value.toNat ∧
    (((s.value.toNat - s.lo.toNat) / (s.hi.toNat + 1 - s.lo.toNat) : ℚ) < (estimate Config.build tb h).f 256 →
      t.value.toNat ≤ t.hi.toNat)

/-- The decoder inverts the encoder's narrowing (R133, R137): if VALUE lies at or above the LO that narrowing to a gives, and
below the LO that narrowing to a + 1 gives when a is not 255, then Locate returns a. -/
def Obligations.LocateInvertsNarrow : Prop :=
  ∀ (w : Nat) (t : Table) (h : Context) (s : State) (a : Symbol), t.Sound Config.build w →
    s.lo.toNat ≤ s.hi.toNat →
    let e := estimate Config.build t h
    narrowedLo Config.build e a s ≤ s.value.toNat →
    (a.toNat < 255 → s.value.toNat < narrowedLo Config.build e (a + 1) s) →
    locate Config.build e s = .ok a

/-- R145: Emit raises SinkFull exactly when OUT_LEN = 524288; otherwise bit OUT_LEN of the output stream is written, every
other bit and every byte but the one that holds it are kept, OUT_LEN is one more, and nothing else changes. -/
def Obligations.EmitAppendsOneBit : Prop :=
  ∀ (s : State) (v : Bool), s.outLen.toNat ≤ 524288 →
    (s.outLen.toNat = 524288 → emit Config.build v s = .error .sinkFull) ∧
    (s.outLen.toNat ≠ 524288 → ∃ t, emit Config.build v s = .ok t ∧
      t = { s with obuf := t.obuf, outLen := t.outLen } ∧ t.outLen.toNat = s.outLen.toNat + 1 ∧
      (∀ i, t.obit i = if i = s.outLen.toNat then v else s.obit i) ∧
      ∀ a, a ≠ streamByte obufBase s.outLen.toNat → t.obufByte a = s.obufByte a)

/-- R147: Absorb returns the stream's bit below RUN_LEN, 0 in the 32 padding positions after it, and raises SourceExhausted
past them; it advances CURSOR by one and changes nothing else. -/
def Obligations.AbsorbReadsStreamThenPadding : Prop :=
  ∀ s : State,
    (s.cursor.toNat < s.runLen.toNat →
      absorb s = .ok (s.ibit s.cursor.toNat, { s with cursor := s.cursor + 1 })) ∧
    (s.runLen.toNat ≤ s.cursor.toNat → s.cursor.toNat < s.runLen.toNat + 32 →
      absorb s = .ok (false, { s with cursor := s.cursor + 1 })) ∧
    (s.runLen.toNat + 32 ≤ s.cursor.toNat → absorb s = .error .sourceExhausted)

/-- R151: StraddleInc raises StraddleOverflow at 2^32 - 1 and otherwise adds one and changes nothing else. -/
def Obligations.StraddleIncAddsOneOrFaults : Prop :=
  ∀ s : State,
    (s.straddle.toNat = 2 ^ 32 - 1 → straddleInc Config.build s = .error .straddleOverflow) ∧
    (s.straddle.toNat ≠ 2 ^ 32 - 1 → straddleInc Config.build s = .ok { s with straddle := s.straddle + 1 })

/-- R140 to R142: what a completed pass of RenormEnc emits. LOW: bit 0 and then STRADDLE ones; HIGH: bit 1 and then STRADDLE
zeros; in both STRADDLE becomes 0. MID: no bit, STRADDLE + 1. Earlier bits are kept, and LO and HI are offset and
stretched (R143). -/
def Obligations.RenormPassEmitsOwedBits : Prop :=
  ∀ (c : RenormCase) (s t : State), s.outLen.toNat ≤ 524288 → renormCase s.lo.toNat s.hi.toNat = some c →
    renormEncPass Config.build c s = .ok t →
    t.lo.toNat = 2 * (s.lo.toNat - c.offset) ∧ t.hi.toNat = 2 * (s.hi.toNat - c.offset) + 1 ∧
    (∀ i < s.outLen.toNat, t.obit i = s.obit i) ∧
    (c ≠ .mid → t.straddle = 0 ∧ t.outLen.toNat = s.outLen.toNat + 1 + s.straddle.toNat ∧
      t.obit s.outLen.toNat = decide (c = .high) ∧
      ∀ i, s.outLen.toNat < i → i < t.outLen.toNat → t.obit i = decide (c = .low)) ∧
    (c = .mid → t.straddle.toNat = s.straddle.toNat + 1 ∧ t.outLen = s.outLen ∧ ∀ i, t.obit i = s.obit i)

/-- R139, R143, R144 and R153: a completed RenormEnc stops on a settled interval, of range QUARTER + 2 or more, after n
stretches: the width is 2^n times what it was, and OUT_LEN + STRADDLE is n more; n ≤ 31 where LO < HI ≤ ONE. -/
def Obligations.RenormEncAccountsForBits : Prop :=
  ∀ s t : State, s.lo.toNat ≤ s.hi.toNat → s.outLen.toNat ≤ 524288 → renormEnc Config.build s = .ok t →
    Settled t.lo.toNat t.hi.toNat ∧ 1073741824 + 2 ≤ t.hi.toNat + 1 - t.lo.toNat ∧
    ∃ n, t.hi.toNat + 1 - t.lo.toNat = 2 ^ n * (s.hi.toNat + 1 - s.lo.toNat) ∧
      t.outLen.toNat + t.straddle.toNat = s.outLen.toNat + s.straddle.toNat + n ∧
      (s.lo.toNat < s.hi.toNat → s.hi.toNat ≤ 4294967295 → n ≤ 31)

/-- R146, R147 and R153: a completed RenormDec stops on a settled interval after n stretches; CURSOR is n more, and VALUE - LO
is shifted by the n bits absorbed, the first one the most significant: stream bit CURSOR + j below RUN_LEN, and 0 in the
padding; a VALUE inside the interval stays inside. From the same interval RenormEnc ends on the same interval. -/
def Obligations.RenormDecMirrorsRenormEnc : Prop :=
  ∀ d d' : State, d.lo.toNat ≤ d.hi.toNat → d.lo.toNat ≤ d.value.toNat → renormDec Config.build d = .ok d' →
    Settled d'.lo.toNat d'.hi.toNat ∧
    (∃ n x, d'.hi.toNat + 1 - d'.lo.toNat = 2 ^ n * (d.hi.toNat + 1 - d.lo.toNat) ∧
      d'.cursor.toNat = d.cursor.toNat + n ∧ x < 2 ^ n ∧
      (∀ j < n, x.testBit (n - 1 - j) =
        (decide (d.cursor.toNat + j < d.runLen.toNat) && d.ibit (d.cursor.toNat + j))) ∧
      d'.value.toNat = d'.lo.toNat + 2 ^ n * (d.value.toNat - d.lo.toNat) + x) ∧
    (d.value.toNat ≤ d.hi.toNat → d'.value.toNat ≤ d'.hi.toNat) ∧
    ∀ s s' : State, s.lo = d.lo → s.hi = d.hi → renormEnc Config.build s = .ok s' → d'.lo = s'.lo ∧ d'.hi = s'.hi

/-- R144: the loops always end: from LO ≤ HI, more than REG_W + 1 passes change nothing, so the bound on the passes is never
what stops the loop (log entry 5). -/
def Obligations.RenormBoundIsNeverReached : Prop :=
  ∀ (s : State) (n : Nat), s.lo.toNat ≤ s.hi.toNat → 65 ≤ n →
    renormEncLoop Config.build n s = renormEnc Config.build s ∧
    renormDecLoop Config.build n s = renormDec Config.build s

/-! ## ENC_SYM and DEC_SYM -/

/-- R175: where ENC_SYM completes, on the state and the operand alone: an active encode run on a sound table, counts below
the limit, room in T for the contexts that are unseen, P[s] ≥ 1/range (no ZeroInterval), and, for every number n of
stretches that the narrowed interval, cut off at ONE, can take, a HI that stays within 64 bits (no IntervalOverflow) and
room in OBUF for n more bits. A narrowed LO above ONE never completes (NarrowedLoAboveOneNeverCompletes). ENC_SYM then leaves
an ACTIVE state with T and H as Observe leaves them, SYMCOUNT one more modulo 2^32, and LO, HI, STRADDLE and the output
bits as RenormEnc leaves them on the narrowed state: a settled interval 2^n times the narrowed one, and OUT_LEN + STRADDLE
n more. -/
def Obligations.EncSymCompletes : Prop :=
  ∀ (a : Symbol) (s : State), s.runState = .active → s.mode = .encode →
    s.table.Sound Config.build s.runW.toNat →
    (∀ e ∈ s.table, e.2.total + 2 ≤ 4294967295) →
    (∀ n, Config.CTX_CAP = some n → (∃ k ≤ s.hist.length, s.table.record? (ctx s.hist k) = none) →
      s.table.length + s.hist.length + 1 ≤ n) →
    s.lo.toNat ≤ s.hi.toNat →
    1 ≤ (s.range : ℚ) * estimateOne Config.build s.table s.hist a →
    let e := estimate Config.build s.table s.hist
    let l := narrowedLo Config.build e a s
    let h := narrowedHi Config.build e a s
    l ≤ 4294967295 →
    (∀ n, 2 ^ n * (min h 4294967295 + 1 - l) ≤ 2 ^ 32 →
      4294967295 + 2 ^ n * (h - 4294967295) < 2 ^ 64 ∧ s.outLen.toNat + s.straddle.toNat + n ≤ 524288) →
    ∃ t u v, exec (.encSym a) s = .next t ∧ t.runState = .active ∧ t.symCount = s.symCount + 1 ∧
      observeFrom Config.build s.hist a (s.hist.length + 1) s.table = .ok t.table ∧
      t.hist = slide s.runW.toNat s.hist a ∧
      narrow Config.build e a s = .ok u ∧ renormEnc Config.build u = .ok v ∧
      t.lo = v.lo ∧ t.hi = v.hi ∧ t.straddle = v.straddle ∧ t.outLen = v.outLen ∧ (∀ i, t.obit i = v.obit i) ∧
      Settled t.lo.toNat t.hi.toNat ∧
      ∃ n ≤ 32, t.hi.toNat + 1 - t.lo.toNat =
          2 ^ n * (⌊(s.range : ℚ) * estimateOne Config.build s.table s.hist a⌋₊ + 1) ∧
        t.outLen.toNat + t.straddle.toNat = s.outLen.toNat + s.straddle.toNat + n

/-- R176: where DEC_SYM completes with symbol a, on the state alone: an active decode run on a sound table, counts and T as for
ENC_SYM, a the largest symbol with F[a] ≤ x (for 255 also where x ≥ F[256], log entry 7), P[a] ≥ 1/range, and, for every
number n of stretches that the narrowed interval, cut off at ONE, can take, a HI and a VALUE that stay within 64 bits, and
CURSOR + n ≤ RUN_LEN + 32. It then leaves SYM = a and SYM_VALID = 1 in an ACTIVE state, T and H as Observe leaves them,
SYMCOUNT one more modulo 2^32, CURSOR advanced by the n stretches, and LO, HI and VALUE as RenormDec leaves them on the
narrowed state: LO ≤ VALUE on a settled interval, and VALUE ≤ HI where VALUE was in the narrowed interval. -/
def Obligations.DecSymCompletes : Prop :=
  ∀ (a : Symbol) (s : State), s.runState = .active → s.mode = .decode →
    s.table.Sound Config.build s.runW.toNat →
    (∀ e ∈ s.table, e.2.total + 2 ≤ 4294967295) →
    (∀ n, Config.CTX_CAP = some n → (∃ k ≤ s.hist.length, s.table.record? (ctx s.hist k) = none) →
      s.table.length + s.hist.length + 1 ≤ n) →
    s.lo.toNat ≤ s.hi.toNat → s.lo.toNat ≤ s.value.toNat →
    let e := estimate Config.build s.table s.hist
    let l := narrowedLo Config.build e a s
    let h := narrowedHi Config.build e a s
    e.f a.toNat * s.range ≤ s.value.toNat - s.lo.toNat →
    (a.toNat < 255 → (s.value.toNat - s.lo.toNat : ℚ) < e.f (a.toNat + 1) * s.range) →
    1 ≤ (s.range : ℚ) * estimateOne Config.build s.table s.hist a →
    l ≤ 4294967295 →
    (∀ n, 2 ^ n * (min h 4294967295 + 1 - l) ≤ 2 ^ 32 →
      4294967295 + 2 ^ n * (h - 4294967295) < 2 ^ 64 ∧
      (s.value.toNat ≤ h ∨ 2 ^ n * (s.value.toNat + 1) ≤ 2 ^ 64) ∧
      s.cursor.toNat + n ≤ s.runLen.toNat + 32) →
    ∃ t u v, exec .decSym s = .next t ∧ t.runState = .active ∧ t.sym = a ∧ t.symValid = true ∧
      t.symCount = s.symCount + 1 ∧
      observeFrom Config.build s.hist a (s.hist.length + 1) s.table = .ok t.table ∧
      t.hist = slide s.runW.toNat s.hist a ∧
      narrow Config.build e a s = .ok u ∧ renormDec Config.build u = .ok v ∧
      t.lo = v.lo ∧ t.hi = v.hi ∧ t.value = v.value ∧ t.cursor = v.cursor ∧
      Settled t.lo.toNat t.hi.toNat ∧ t.lo.toNat ≤ t.value.toNat ∧
      (s.value.toNat ≤ h → t.value.toNat ≤ t.hi.toNat) ∧
      ∃ n ≤ 32, t.cursor.toNat = s.cursor.toNat + n

/-- The frame of ENC_SYM (R175): where it ends without a fault, only T, H, LO, HI, STRADDLE, OUT_LEN, OBUF and SYMCOUNT change;
output bits before OUT_LEN and from the new OUT_LEN on, every byte of OBUF that holds no emitted bit, and every byte of
IBUF read as before. -/
def Obligations.EncSymFrame : Prop :=
  ∀ (a : Symbol) (s t : State), s.outLen.toNat ≤ 524288 → Completes (.encSym a) s t →
    t = { s with
      table := t.table, hist := t.hist, lo := t.lo, hi := t.hi, straddle := t.straddle, outLen := t.outLen,
      obuf := t.obuf, symCount := s.symCount + 1 } ∧
    s.outLen.toNat ≤ t.outLen.toNat ∧
    (∀ i, i < s.outLen.toNat ∨ t.outLen.toNat ≤ i → t.obit i = s.obit i) ∧
    (∀ x, (∀ i, s.outLen.toNat ≤ i → i < t.outLen.toNat → streamByte obufBase i ≠ x) → t.obufByte x = s.obufByte x) ∧
    ∀ x, t.ibufByte x = s.ibufByte x

/-- The frame of DEC_SYM (R176): where it ends without a fault, only T, H, LO, HI, VALUE, CURSOR, SYM, SYM_VALID and SYMCOUNT
change; every byte of OBUF and IBUF reads as before. -/
def Obligations.DecSymFrame : Prop :=
  ∀ s t : State, Completes .decSym s t →
    t = { s with
      table := t.table, hist := t.hist, lo := t.lo, hi := t.hi, value := t.value, cursor := t.cursor, sym := t.sym,
      symValid := true, symCount := s.symCount + 1 } ∧
    s.cursor.toNat ≤ t.cursor.toNat ∧
    (∀ x, t.obufByte x = s.obufByte x) ∧ ∀ x, t.ibufByte x = s.ibufByte x

/-- R124: lockstep. An encoder and a decoder with equal (T, H), RUN_W and interval end a symbol with equal (T, H) and interval
when the decoder decodes the symbol the encoder codes. -/
def Obligations.EncoderAndDecoderStayInLockstep : Prop :=
  ∀ (a : Symbol) (s s' d d' : State), s.table = d.table → s.hist = d.hist → s.runW = d.runW → s.lo = d.lo →
    s.hi = d.hi → Completes (.encSym a) s s' → Completes .decSym d d' → d'.sym = a →
    s'.table = d'.table ∧ s'.hist = d'.hist ∧ s'.runW = d'.runW ∧ s'.lo = d'.lo ∧ s'.hi = d'.hi

/-- R245: within an encode run the emitter only appends: no command but an INIT that ends without a fault changes an output
bit below OUT_LEN, or lowers OUT_LEN. -/
def Obligations.OutputIsAppendOnly : Prop :=
  ∀ (i : Instr) (s t : State), s.outLen.toNat ≤ 524288 → Completes i s t → i ≠ .initEnc → i ≠ .initDec →
    s.outLen.toNat ≤ t.outLen.toNat ∧ ∀ j < s.outLen.toNat, t.obit j = s.obit j

/-- R182 (b): an encode step depends on nothing but (T, H), RUN_W, the interval, STRADDLE and OUT_LEN: two states that agree on
these and complete ENC_SYM agree on them afterwards and have emitted the same bits, whatever IBUF, OBUF, the free draws and
every other element hold. -/
def Obligations.EncodingIsDeterminedByRunState : Prop :=
  ∀ (a : Symbol) (s s' u u' : State), s.table = u.table → s.hist = u.hist → s.runW = u.runW → s.lo = u.lo →
    s.hi = u.hi → s.straddle = u.straddle → s.outLen = u.outLen → s.outLen.toNat ≤ 524288 →
    Completes (.encSym a) s s' → Completes (.encSym a) u u' →
    s'.table = u'.table ∧ s'.hist = u'.hist ∧ s'.lo = u'.lo ∧ s'.hi = u'.hi ∧ s'.straddle = u'.straddle ∧
    s'.outLen = u'.outLen ∧
    ∀ i, s.outLen.toNat ≤ i → i < s'.outLen.toNat → s'.obit i = u'.obit i

/-- R175 and R176, step by step: in an active encode run ENC_SYM estimates, narrows, observes and renormalizes, and counts the
symbol; in an active decode run DEC_SYM estimates, locates, narrows, observes, renormalizes, writes SYM and SYM_VALID, and
counts the symbol. The first of these that raises a fault ends the command in that fault; where none does, the command
leaves LO, HI, STRADDLE, OUT_LEN and OBUF, or LO, HI, VALUE and CURSOR, as the renormalizer leaves them on the narrowed
state, T and H as Observe leaves them, and everything else as it was. -/
def Obligations.SymbolCommandsFollowTheirSteps : Prop :=
  ∀ s : State, s.runState = .active →
    let e := estimate Config.build s.table s.hist
    (∀ a, s.mode = .encode →
      (∀ c, narrow Config.build e a s = .error c → exec (.encSym a) s = .next (s.raise c)) ∧
      ∀ u, narrow Config.build e a s = .ok u →
        (∀ c, observeFrom Config.build s.hist a (s.hist.length + 1) s.table = .error c →
          exec (.encSym a) s = .next (s.raise c)) ∧
        ∀ tb, observeFrom Config.build s.hist a (s.hist.length + 1) s.table = .ok tb →
          (∀ c, renormEnc Config.build u = .error c → exec (.encSym a) s = .next (s.raise c)) ∧
          ∀ v, renormEnc Config.build u = .ok v → exec (.encSym a) s = .next { s with
            lo := v.lo, hi := v.hi, straddle := v.straddle, outLen := v.outLen, obuf := v.obuf, table := tb,
            hist := slide s.runW.toNat s.hist a, symCount := s.symCount + 1 }) ∧
    (s.mode = .decode →
      (∀ c, locate Config.build e s = .error c → exec .decSym s = .next (s.raise c)) ∧
      ∀ a, locate Config.build e s = .ok a →
        (∀ c, narrow Config.build e a s = .error c → exec .decSym s = .next (s.raise c)) ∧
        ∀ u, narrow Config.build e a s = .ok u →
          (∀ c, observeFrom Config.build s.hist a (s.hist.length + 1) s.table = .error c →
            exec .decSym s = .next (s.raise c)) ∧
          ∀ tb, observeFrom Config.build s.hist a (s.hist.length + 1) s.table = .ok tb →
            (∀ c, renormDec Config.build u = .error c → exec .decSym s = .next (s.raise c)) ∧
            ∀ v, renormDec Config.build u = .ok v → exec .decSym s = .next { s with
              lo := v.lo, hi := v.hi, value := v.value, cursor := v.cursor, table := tb,
              hist := slide s.runW.toNat s.hist a, sym := a, symValid := true, symCount := s.symCount + 1 })

/-- R136 and R144: a symbol command whose narrowed LO is above ONE never completes, since only HIGH passes apply and LO never
falls below HALF. -/
def Obligations.NarrowedLoAboveOneNeverCompletes : Prop :=
  ∀ s t : State,
    let e := estimate Config.build s.table s.hist
    (∀ a, Completes (.encSym a) s t → narrowedLo Config.build e a s ≤ 4294967295) ∧
    (Completes .decSym s t → narrowedLo Config.build e t.sym s ≤ 4294967295)
end

