-- ==== Sys2Proof/Laws/Assoc.lean ====
section
/-! SUPPORT. The laws of the canonical association lists: reading after writing, and that writing keeps the canonical
form. -/

namespace Sys2Proof.Machine.Assoc

variable {κ α : Type} {code : κ → Nat} {l : List (κ × α)} {k k' : κ} {v : α}

@[simp] theorem find?_nil : find? code ([] : List (κ × α)) k = none := rfl

/-- Keys of the same code read the same. -/
theorem find?_congr (h : code k = code k') : find? code l k = find? code l k' := by
  induction l with
  | nil => rfl
  | cons e l ih => obtain ⟨k₀, v₀⟩ := e; simp only [find?, h, ih]

/-- A written key reads the value written. -/
theorem find?_insert_same (h : code k = code k') : find? code (insert code l k v) k' = some v := by
  induction l with
  | nil => simp [insert, find?, h]
  | cons e l ih =>
    obtain ⟨k₀, v₀⟩ := e
    simp only [insert]
    split
    · simp [find?, h]
    · split
      · simp [find?, h]
      · have : code k₀ ≠ code k' := by omega
        simp [find?, this, ih]

/-- Every other key reads as before. -/
theorem find?_insert_other (h : code k ≠ code k') : find? code (insert code l k v) k' = find? code l k' := by
  induction l with
  | nil => simp [insert, find?, h]
  | cons e l ih =>
    obtain ⟨k₀, v₀⟩ := e
    simp only [insert]
    split
    · simp [find?, h]
    · split
      · have : code k₀ ≠ code k' := by omega
        simp [find?, h, this]
      · simp [find?, ih]

/-- What stands in a written list: the new entry, or an old one. -/
theorem mem_insert {e : κ × α} (h : e ∈ insert code l k v) : e = (k, v) ∨ e ∈ l := by
  induction l with
  | nil => simpa [insert] using h
  | cons e₀ l ih =>
    obtain ⟨k₀, v₀⟩ := e₀
    simp only [insert] at h
    split at h
    · simpa using h
    · split at h
      · rcases List.mem_cons.mp h with h | h <;> simp [h]
      · rcases List.mem_cons.mp h with h | h
        · simp [h]
        · rcases ih h with h | h <;> simp [h]

/-- Writing keeps the canonical form. -/
theorem Sorted.insert (h : Sorted code l) : Sorted code (insert code l k v) := by
  induction l with
  | nil => simp [Sorted, Assoc.insert]
  | cons e l ih =>
    obtain ⟨k₀, v₀⟩ := e
    obtain ⟨h₁, h₂⟩ := List.pairwise_cons.mp h
    simp only [Assoc.insert]
    split
    · rename_i hlt
      refine List.pairwise_cons.mpr ⟨fun e he => ?_, h⟩
      rcases List.mem_cons.mp he with rfl | he
      · exact hlt
      · exact hlt.trans (h₁ e he)
    · split
      · rename_i heq
        exact List.pairwise_cons.mpr ⟨fun e he => heq ▸ h₁ e he, h₂⟩
      · refine List.pairwise_cons.mpr ⟨fun e he => ?_, ih h₂⟩
        rcases mem_insert he with rfl | he
        · simp only; omega
        · exact h₁ e he

/-- A key that reads a value stands in the list, under a key of the same code. -/
theorem mem_of_find? (h : find? code l k = some v) : ∃ k₀, code k₀ = code k ∧ (k₀, v) ∈ l := by
  induction l with
  | nil => simp at h
  | cons e l ih =>
    obtain ⟨k₀, v₀⟩ := e
    simp only [find?] at h
    split at h
    · exact ⟨k₀, ‹_›, by simp_all⟩
    · obtain ⟨k₁, h₁, h₂⟩ := ih h; exact ⟨k₁, h₁, by simp [h₂]⟩

/-- In a canonical list an entry is what its key reads. -/
theorem find?_of_mem (hs : Sorted code l) (h : (k, v) ∈ l) : find? code l k = some v := by
  induction l with
  | nil => simp at h
  | cons e l ih =>
    obtain ⟨k₀, v₀⟩ := e
    obtain ⟨h₁, h₂⟩ := List.pairwise_cons.mp hs
    rcases List.mem_cons.mp h with h | h
    · obtain ⟨rfl, rfl⟩ := Prod.mk.inj h; simp [find?]
    · have := h₁ _ h
      have hne : code k₀ ≠ code k := by simp only at this; omega
      simp [find?, hne, ih h₂ h]

/-- Writing a new key adds an entry. -/
theorem length_insert_of_none (h : find? code l k = none) : (insert code l k v).length = l.length + 1 := by
  induction l with
  | nil => rfl
  | cons e l ih =>
    obtain ⟨k₀, v₀⟩ := e
    simp only [find?] at h
    split at h
    · simp at h
    · simp only [insert]
      split
      · rfl
      · split
        · omega
        · simp [ih h]

/-- Writing over a key that reads a value keeps the number of entries of a canonical list. -/
theorem length_insert_of_some (hs : Sorted code l) {v₀ : α} (h : find? code l k = some v₀) :
    (insert code l k v).length = l.length := by
  induction l with
  | nil => simp at h
  | cons e l ih =>
    obtain ⟨k₁, v₁⟩ := e
    obtain ⟨h₁, h₂⟩ := List.pairwise_cons.mp hs
    simp only [find?] at h
    split at h
    · have hk : code k₁ = code k := ‹_›
      simp [insert, ← hk]
    · obtain ⟨k₂, hk, hm⟩ := mem_of_find? h
      have := h₁ _ hm
      simp only at this
      simp only [insert]
      rw [if_neg (by omega), if_neg (by omega)]
      simp [ih h₂ h]

end Sys2Proof.Machine.Assoc
end

