-- ==== Sys2Proof/Laws/Config.lean ====
section
/-! SUPPORT. The numbers of the constants of R130 and of this hardware's parameters (R6), for arithmetic.
The numbers are proved by `(rfl)`, so that `simp` rewrites with them under a decidable condition too. -/

namespace Sys2Proof.Config

/-- DATA_W is the width of the bus and command words (R6, R50). -/
theorem word_width : Word = BitVec DATA_W := rfl

/-- ADDR_W is the width of the host addresses (R6, R50). -/
theorem addr_width : Addr = BitVec ADDR_W := rfl

@[simp] theorem PREC_eq : PREC = 32 := (rfl)
@[simp] theorem NSYM_eq : NSYM = 256 := (rfl)
@[simp] theorem ONE_eq : ONE = 4294967295 := (rfl)
@[simp] theorem QUARTER_eq : QUARTER = 1073741824 := (rfl)
@[simp] theorem HALF_eq : HALF = 2147483648 := (rfl)
@[simp] theorem THREEQUARTERS_eq : THREEQUARTERS = 3221225472 := (rfl)

@[simp] theorem build_regW : build.regW = 64 := (rfl)
@[simp] theorem build_straddleW : build.straddleW = 32 := (rfl)
@[simp] theorem build_cntW : build.cntW = 32 := (rfl)
@[simp] theorem build_ibufBits : build.ibufBits = 524288 := (rfl)
@[simp] theorem build_obufBits : build.obufBits = 524288 := (rfl)
@[simp] theorem build_ctxCap : build.ctxCap = CTX_CAP := (rfl)
@[simp] theorem build_floorRecord : build.floorRecord = .increment := (rfl)

end Sys2Proof.Config

namespace Sys2Proof.Machine

/-- This hardware rounds nothing (R113). -/
@[simp] theorem roundStep_build (x : ℚ) : roundStep Config.build x = x := rfl

@[simp] theorem countMax_build : countMax Config.build = 4294967295 := rfl

/-- This hardware's width check (R136), in numbers. -/
theorem widthOk_build {n : Nat} : widthOk Config.build n = true ↔ n ≤ 18446744073709551615 := decide_eq_true_iff

theorem widthOk_build_false {n : Nat} : widthOk Config.build n = false ↔ 18446744073709551615 < n := by
  rw [Bool.eq_false_iff, ne_eq, widthOk_build, not_le]

/-- A value that passes this hardware's width check is what LO, HI or VALUE holds after it is written. -/
theorem toNat_ofNat_reg {n : Nat} (h : n ≤ 2 ^ Config.build.regW - 1) : (BitVec.ofNat 64 n).toNat = n := by
  change n ≤ 2 ^ 64 - 1 at h
  rw [BitVec.toNat_ofNat, Nat.mod_eq_of_lt]
  omega

/-- The case of a renormalization pass (R139), in numbers. -/
theorem renormCase_some {l h : Nat} {c : RenormCase} (hc : renormCase l h = some c) :
    (c = .low ∧ h < 2147483648) ∨ (c = .high ∧ 2147483648 ≤ h ∧ 2147483648 ≤ l) ∨
    (c = .mid ∧ 1073741824 ≤ l ∧ l < 2147483648 ∧ 2147483648 ≤ h ∧ h < 3221225472) := by
  unfold renormCase at hc
  by_cases h₁ : h < Config.HALF
  · rw [if_pos h₁] at hc; injection hc with hc; exact .inl ⟨hc.symm, h₁⟩
  · rw [if_neg h₁] at hc
    have h₁' : 2147483648 ≤ h := Nat.le_of_not_lt h₁
    by_cases h₂ : Config.HALF ≤ l
    · rw [if_pos h₂] at hc; injection hc with hc; exact .inr (.inl ⟨hc.symm, h₁', h₂⟩)
    · rw [if_neg h₂] at hc
      by_cases h₃ : Config.QUARTER ≤ l ∧ h < Config.THREEQUARTERS
      · rw [if_pos h₃] at hc; injection hc with hc
        exact .inr (.inr ⟨hc.symm, h₃.1, Nat.lt_of_not_le h₂, h₁', h₃.2⟩)
      · rw [if_neg h₃] at hc; injection hc

/-- The loop stops exactly on a settled interval (R144), in numbers. -/
theorem renormCase_none {l h : Nat} :
    renormCase l h = none ↔
      l < 2147483648 ∧ 2147483648 ≤ h ∧ (l < 1073741824 ∨ 3221225472 ≤ h) := by
  change renormCase l h = none ↔ l < Config.HALF ∧ Config.HALF ≤ h ∧ (l < Config.QUARTER ∨ Config.THREEQUARTERS ≤ h)
  unfold renormCase
  by_cases h₁ : h < Config.HALF
  · simp only [if_pos h₁, reduceCtorEq, false_iff]; omega
  · by_cases h₂ : Config.HALF ≤ l
    · simp only [if_neg h₁, if_pos h₂, reduceCtorEq, false_iff]; omega
    · by_cases h₃ : Config.QUARTER ≤ l ∧ h < Config.THREEQUARTERS
      · simp only [if_neg h₁, if_neg h₂, if_pos h₃, reduceCtorEq, false_iff]; omega
      · simp only [if_neg h₁, if_neg h₂, if_neg h₃, true_iff]; omega

@[simp] theorem offset_low : RenormCase.low.offset = 0 := rfl
@[simp] theorem offset_high : RenormCase.high.offset = 2147483648 := rfl
@[simp] theorem offset_mid : RenormCase.mid.offset = 1073741824 := rfl

/-- The offset of a case is at most LO: no subtraction goes below 0 (R140 to R142, R146). -/
theorem offset_le {l h : Nat} {c : RenormCase} (hc : renormCase l h = some c) : c.offset ≤ l := by
  rcases renormCase_some hc with ⟨rfl, -⟩ | ⟨rfl, -, h⟩ | ⟨rfl, h, -⟩ <;> simp [*]

end Sys2Proof.Machine
end

