-- ==== Sys2Proof/Laws/State.lean ====
section
/-! SUPPORT. One lemma per field per named update of the state: what the update writes there, or that it keeps it. -/

namespace Sys2Proof.Machine

section
variable (s : State)

/-! `setInterval` -/

@[simp] theorem State.setInterval_runState (l h : Nat) : (s.setInterval l h).runState = s.runState := rfl
@[simp] theorem State.setInterval_mode (l h : Nat) : (s.setInterval l h).mode = s.mode := rfl
@[simp] theorem State.setInterval_pend (l h : Nat) : (s.setInterval l h).pend = s.pend := rfl
@[simp] theorem State.setInterval_fault (l h : Nat) : (s.setInterval l h).fault = s.fault := rfl
@[simp] theorem State.setInterval_lo (l h : Nat) : (s.setInterval l h).lo = BitVec.ofNat 64 l := rfl
@[simp] theorem State.setInterval_hi (l h : Nat) : (s.setInterval l h).hi = BitVec.ofNat 64 h := rfl
@[simp] theorem State.setInterval_value (l h : Nat) : (s.setInterval l h).value = s.value := rfl
@[simp] theorem State.setInterval_straddle (l h : Nat) : (s.setInterval l h).straddle = s.straddle := rfl
@[simp] theorem State.setInterval_cursor (l h : Nat) : (s.setInterval l h).cursor = s.cursor := rfl
@[simp] theorem State.setInterval_runLen (l h : Nat) : (s.setInterval l h).runLen = s.runLen := rfl
@[simp] theorem State.setInterval_runW (l h : Nat) : (s.setInterval l h).runW = s.runW := rfl
@[simp] theorem State.setInterval_outLen (l h : Nat) : (s.setInterval l h).outLen = s.outLen := rfl
@[simp] theorem State.setInterval_sym (l h : Nat) : (s.setInterval l h).sym = s.sym := rfl
@[simp] theorem State.setInterval_symValid (l h : Nat) : (s.setInterval l h).symValid = s.symValid := rfl
@[simp] theorem State.setInterval_symCount (l h : Nat) : (s.setInterval l h).symCount = s.symCount := rfl
@[simp] theorem State.setInterval_maxord (l h : Nat) : (s.setInterval l h).maxord = s.maxord := rfl
@[simp] theorem State.setInterval_inLen (l h : Nat) : (s.setInterval l h).inLen = s.inLen := rfl
@[simp] theorem State.setInterval_ibuf (l h : Nat) : (s.setInterval l h).ibuf = s.ibuf := rfl
@[simp] theorem State.setInterval_obuf (l h : Nat) : (s.setInterval l h).obuf = s.obuf := rfl
@[simp] theorem State.setInterval_table (l h : Nat) : (s.setInterval l h).table = s.table := rfl
@[simp] theorem State.setInterval_hist (l h : Nat) : (s.setInterval l h).hist = s.hist := rfl
@[simp] theorem State.setInterval_readData (l h : Nat) : (s.setInterval l h).readData = s.readData := rfl
@[simp] theorem State.setInterval_ibufDraw (l h : Nat) : (s.setInterval l h).ibufDraw = s.ibufDraw := rfl
@[simp] theorem State.setInterval_obufDraw (l h : Nat) : (s.setInterval l h).obufDraw = s.obufDraw := rfl
@[simp] theorem State.setInterval_draws (l h : Nat) : (s.setInterval l h).draws = s.draws := rfl
@[simp] theorem State.setInterval_agenda (l h : Nat) : (s.setInterval l h).agenda = s.agenda := rfl

/-! `setValue` -/

@[simp] theorem State.setValue_runState (n : Nat) : (s.setValue n).runState = s.runState := rfl
@[simp] theorem State.setValue_mode (n : Nat) : (s.setValue n).mode = s.mode := rfl
@[simp] theorem State.setValue_pend (n : Nat) : (s.setValue n).pend = s.pend := rfl
@[simp] theorem State.setValue_fault (n : Nat) : (s.setValue n).fault = s.fault := rfl
@[simp] theorem State.setValue_lo (n : Nat) : (s.setValue n).lo = s.lo := rfl
@[simp] theorem State.setValue_hi (n : Nat) : (s.setValue n).hi = s.hi := rfl
@[simp] theorem State.setValue_value (n : Nat) : (s.setValue n).value = BitVec.ofNat 64 n := rfl
@[simp] theorem State.setValue_straddle (n : Nat) : (s.setValue n).straddle = s.straddle := rfl
@[simp] theorem State.setValue_cursor (n : Nat) : (s.setValue n).cursor = s.cursor := rfl
@[simp] theorem State.setValue_runLen (n : Nat) : (s.setValue n).runLen = s.runLen := rfl
@[simp] theorem State.setValue_runW (n : Nat) : (s.setValue n).runW = s.runW := rfl
@[simp] theorem State.setValue_outLen (n : Nat) : (s.setValue n).outLen = s.outLen := rfl
@[simp] theorem State.setValue_sym (n : Nat) : (s.setValue n).sym = s.sym := rfl
@[simp] theorem State.setValue_symValid (n : Nat) : (s.setValue n).symValid = s.symValid := rfl
@[simp] theorem State.setValue_symCount (n : Nat) : (s.setValue n).symCount = s.symCount := rfl
@[simp] theorem State.setValue_maxord (n : Nat) : (s.setValue n).maxord = s.maxord := rfl
@[simp] theorem State.setValue_inLen (n : Nat) : (s.setValue n).inLen = s.inLen := rfl
@[simp] theorem State.setValue_ibuf (n : Nat) : (s.setValue n).ibuf = s.ibuf := rfl
@[simp] theorem State.setValue_obuf (n : Nat) : (s.setValue n).obuf = s.obuf := rfl
@[simp] theorem State.setValue_table (n : Nat) : (s.setValue n).table = s.table := rfl
@[simp] theorem State.setValue_hist (n : Nat) : (s.setValue n).hist = s.hist := rfl
@[simp] theorem State.setValue_readData (n : Nat) : (s.setValue n).readData = s.readData := rfl
@[simp] theorem State.setValue_ibufDraw (n : Nat) : (s.setValue n).ibufDraw = s.ibufDraw := rfl
@[simp] theorem State.setValue_obufDraw (n : Nat) : (s.setValue n).obufDraw = s.obufDraw := rfl
@[simp] theorem State.setValue_draws (n : Nat) : (s.setValue n).draws = s.draws := rfl
@[simp] theorem State.setValue_agenda (n : Nat) : (s.setValue n).agenda = s.agenda := rfl

/-! `setStraddle` -/

@[simp] theorem State.setStraddle_runState (n : Nat) : (s.setStraddle n).runState = s.runState := rfl
@[simp] theorem State.setStraddle_mode (n : Nat) : (s.setStraddle n).mode = s.mode := rfl
@[simp] theorem State.setStraddle_pend (n : Nat) : (s.setStraddle n).pend = s.pend := rfl
@[simp] theorem State.setStraddle_fault (n : Nat) : (s.setStraddle n).fault = s.fault := rfl
@[simp] theorem State.setStraddle_lo (n : Nat) : (s.setStraddle n).lo = s.lo := rfl
@[simp] theorem State.setStraddle_hi (n : Nat) : (s.setStraddle n).hi = s.hi := rfl
@[simp] theorem State.setStraddle_value (n : Nat) : (s.setStraddle n).value = s.value := rfl
@[simp] theorem State.setStraddle_straddle (n : Nat) : (s.setStraddle n).straddle = BitVec.ofNat 32 n := rfl
@[simp] theorem State.setStraddle_cursor (n : Nat) : (s.setStraddle n).cursor = s.cursor := rfl
@[simp] theorem State.setStraddle_runLen (n : Nat) : (s.setStraddle n).runLen = s.runLen := rfl
@[simp] theorem State.setStraddle_runW (n : Nat) : (s.setStraddle n).runW = s.runW := rfl
@[simp] theorem State.setStraddle_outLen (n : Nat) : (s.setStraddle n).outLen = s.outLen := rfl
@[simp] theorem State.setStraddle_sym (n : Nat) : (s.setStraddle n).sym = s.sym := rfl
@[simp] theorem State.setStraddle_symValid (n : Nat) : (s.setStraddle n).symValid = s.symValid := rfl
@[simp] theorem State.setStraddle_symCount (n : Nat) : (s.setStraddle n).symCount = s.symCount := rfl
@[simp] theorem State.setStraddle_maxord (n : Nat) : (s.setStraddle n).maxord = s.maxord := rfl
@[simp] theorem State.setStraddle_inLen (n : Nat) : (s.setStraddle n).inLen = s.inLen := rfl
@[simp] theorem State.setStraddle_ibuf (n : Nat) : (s.setStraddle n).ibuf = s.ibuf := rfl
@[simp] theorem State.setStraddle_obuf (n : Nat) : (s.setStraddle n).obuf = s.obuf := rfl
@[simp] theorem State.setStraddle_table (n : Nat) : (s.setStraddle n).table = s.table := rfl
@[simp] theorem State.setStraddle_hist (n : Nat) : (s.setStraddle n).hist = s.hist := rfl
@[simp] theorem State.setStraddle_readData (n : Nat) : (s.setStraddle n).readData = s.readData := rfl
@[simp] theorem State.setStraddle_ibufDraw (n : Nat) : (s.setStraddle n).ibufDraw = s.ibufDraw := rfl
@[simp] theorem State.setStraddle_obufDraw (n : Nat) : (s.setStraddle n).obufDraw = s.obufDraw := rfl
@[simp] theorem State.setStraddle_draws (n : Nat) : (s.setStraddle n).draws = s.draws := rfl
@[simp] theorem State.setStraddle_agenda (n : Nat) : (s.setStraddle n).agenda = s.agenda := rfl

/-! `setCursor` -/

@[simp] theorem State.setCursor_runState (n : Nat) : (s.setCursor n).runState = s.runState := rfl
@[simp] theorem State.setCursor_mode (n : Nat) : (s.setCursor n).mode = s.mode := rfl
@[simp] theorem State.setCursor_pend (n : Nat) : (s.setCursor n).pend = s.pend := rfl
@[simp] theorem State.setCursor_fault (n : Nat) : (s.setCursor n).fault = s.fault := rfl
@[simp] theorem State.setCursor_lo (n : Nat) : (s.setCursor n).lo = s.lo := rfl
@[simp] theorem State.setCursor_hi (n : Nat) : (s.setCursor n).hi = s.hi := rfl
@[simp] theorem State.setCursor_value (n : Nat) : (s.setCursor n).value = s.value := rfl
@[simp] theorem State.setCursor_straddle (n : Nat) : (s.setCursor n).straddle = s.straddle := rfl
@[simp] theorem State.setCursor_cursor (n : Nat) : (s.setCursor n).cursor = BitVec.ofNat 32 n := rfl
@[simp] theorem State.setCursor_runLen (n : Nat) : (s.setCursor n).runLen = s.runLen := rfl
@[simp] theorem State.setCursor_runW (n : Nat) : (s.setCursor n).runW = s.runW := rfl
@[simp] theorem State.setCursor_outLen (n : Nat) : (s.setCursor n).outLen = s.outLen := rfl
@[simp] theorem State.setCursor_sym (n : Nat) : (s.setCursor n).sym = s.sym := rfl
@[simp] theorem State.setCursor_symValid (n : Nat) : (s.setCursor n).symValid = s.symValid := rfl
@[simp] theorem State.setCursor_symCount (n : Nat) : (s.setCursor n).symCount = s.symCount := rfl
@[simp] theorem State.setCursor_maxord (n : Nat) : (s.setCursor n).maxord = s.maxord := rfl
@[simp] theorem State.setCursor_inLen (n : Nat) : (s.setCursor n).inLen = s.inLen := rfl
@[simp] theorem State.setCursor_ibuf (n : Nat) : (s.setCursor n).ibuf = s.ibuf := rfl
@[simp] theorem State.setCursor_obuf (n : Nat) : (s.setCursor n).obuf = s.obuf := rfl
@[simp] theorem State.setCursor_table (n : Nat) : (s.setCursor n).table = s.table := rfl
@[simp] theorem State.setCursor_hist (n : Nat) : (s.setCursor n).hist = s.hist := rfl
@[simp] theorem State.setCursor_readData (n : Nat) : (s.setCursor n).readData = s.readData := rfl
@[simp] theorem State.setCursor_ibufDraw (n : Nat) : (s.setCursor n).ibufDraw = s.ibufDraw := rfl
@[simp] theorem State.setCursor_obufDraw (n : Nat) : (s.setCursor n).obufDraw = s.obufDraw := rfl
@[simp] theorem State.setCursor_draws (n : Nat) : (s.setCursor n).draws = s.draws := rfl
@[simp] theorem State.setCursor_agenda (n : Nat) : (s.setCursor n).agenda = s.agenda := rfl

/-! `setOutLen` -/

@[simp] theorem State.setOutLen_runState (n : Nat) : (s.setOutLen n).runState = s.runState := rfl
@[simp] theorem State.setOutLen_mode (n : Nat) : (s.setOutLen n).mode = s.mode := rfl
@[simp] theorem State.setOutLen_pend (n : Nat) : (s.setOutLen n).pend = s.pend := rfl
@[simp] theorem State.setOutLen_fault (n : Nat) : (s.setOutLen n).fault = s.fault := rfl
@[simp] theorem State.setOutLen_lo (n : Nat) : (s.setOutLen n).lo = s.lo := rfl
@[simp] theorem State.setOutLen_hi (n : Nat) : (s.setOutLen n).hi = s.hi := rfl
@[simp] theorem State.setOutLen_value (n : Nat) : (s.setOutLen n).value = s.value := rfl
@[simp] theorem State.setOutLen_straddle (n : Nat) : (s.setOutLen n).straddle = s.straddle := rfl
@[simp] theorem State.setOutLen_cursor (n : Nat) : (s.setOutLen n).cursor = s.cursor := rfl
@[simp] theorem State.setOutLen_runLen (n : Nat) : (s.setOutLen n).runLen = s.runLen := rfl
@[simp] theorem State.setOutLen_runW (n : Nat) : (s.setOutLen n).runW = s.runW := rfl
@[simp] theorem State.setOutLen_outLen (n : Nat) : (s.setOutLen n).outLen = BitVec.ofNat 20 n := rfl
@[simp] theorem State.setOutLen_sym (n : Nat) : (s.setOutLen n).sym = s.sym := rfl
@[simp] theorem State.setOutLen_symValid (n : Nat) : (s.setOutLen n).symValid = s.symValid := rfl
@[simp] theorem State.setOutLen_symCount (n : Nat) : (s.setOutLen n).symCount = s.symCount := rfl
@[simp] theorem State.setOutLen_maxord (n : Nat) : (s.setOutLen n).maxord = s.maxord := rfl
@[simp] theorem State.setOutLen_inLen (n : Nat) : (s.setOutLen n).inLen = s.inLen := rfl
@[simp] theorem State.setOutLen_ibuf (n : Nat) : (s.setOutLen n).ibuf = s.ibuf := rfl
@[simp] theorem State.setOutLen_obuf (n : Nat) : (s.setOutLen n).obuf = s.obuf := rfl
@[simp] theorem State.setOutLen_table (n : Nat) : (s.setOutLen n).table = s.table := rfl
@[simp] theorem State.setOutLen_hist (n : Nat) : (s.setOutLen n).hist = s.hist := rfl
@[simp] theorem State.setOutLen_readData (n : Nat) : (s.setOutLen n).readData = s.readData := rfl
@[simp] theorem State.setOutLen_ibufDraw (n : Nat) : (s.setOutLen n).ibufDraw = s.ibufDraw := rfl
@[simp] theorem State.setOutLen_obufDraw (n : Nat) : (s.setOutLen n).obufDraw = s.obufDraw := rfl
@[simp] theorem State.setOutLen_draws (n : Nat) : (s.setOutLen n).draws = s.draws := rfl
@[simp] theorem State.setOutLen_agenda (n : Nat) : (s.setOutLen n).agenda = s.agenda := rfl

/-! `setModel` -/

@[simp] theorem State.setModel_runState (t : Table) (h : Context) : (s.setModel t h).runState = s.runState := rfl
@[simp] theorem State.setModel_mode (t : Table) (h : Context) : (s.setModel t h).mode = s.mode := rfl
@[simp] theorem State.setModel_pend (t : Table) (h : Context) : (s.setModel t h).pend = s.pend := rfl
@[simp] theorem State.setModel_fault (t : Table) (h : Context) : (s.setModel t h).fault = s.fault := rfl
@[simp] theorem State.setModel_lo (t : Table) (h : Context) : (s.setModel t h).lo = s.lo := rfl
@[simp] theorem State.setModel_hi (t : Table) (h : Context) : (s.setModel t h).hi = s.hi := rfl
@[simp] theorem State.setModel_value (t : Table) (h : Context) : (s.setModel t h).value = s.value := rfl
@[simp] theorem State.setModel_straddle (t : Table) (h : Context) : (s.setModel t h).straddle = s.straddle := rfl
@[simp] theorem State.setModel_cursor (t : Table) (h : Context) : (s.setModel t h).cursor = s.cursor := rfl
@[simp] theorem State.setModel_runLen (t : Table) (h : Context) : (s.setModel t h).runLen = s.runLen := rfl
@[simp] theorem State.setModel_runW (t : Table) (h : Context) : (s.setModel t h).runW = s.runW := rfl
@[simp] theorem State.setModel_outLen (t : Table) (h : Context) : (s.setModel t h).outLen = s.outLen := rfl
@[simp] theorem State.setModel_sym (t : Table) (h : Context) : (s.setModel t h).sym = s.sym := rfl
@[simp] theorem State.setModel_symValid (t : Table) (h : Context) : (s.setModel t h).symValid = s.symValid := rfl
@[simp] theorem State.setModel_symCount (t : Table) (h : Context) : (s.setModel t h).symCount = s.symCount := rfl
@[simp] theorem State.setModel_maxord (t : Table) (h : Context) : (s.setModel t h).maxord = s.maxord := rfl
@[simp] theorem State.setModel_inLen (t : Table) (h : Context) : (s.setModel t h).inLen = s.inLen := rfl
@[simp] theorem State.setModel_ibuf (t : Table) (h : Context) : (s.setModel t h).ibuf = s.ibuf := rfl
@[simp] theorem State.setModel_obuf (t : Table) (h : Context) : (s.setModel t h).obuf = s.obuf := rfl
@[simp] theorem State.setModel_table (t : Table) (h : Context) : (s.setModel t h).table = t := rfl
@[simp] theorem State.setModel_hist (t : Table) (h : Context) : (s.setModel t h).hist = h := rfl
@[simp] theorem State.setModel_readData (t : Table) (h : Context) : (s.setModel t h).readData = s.readData := rfl
@[simp] theorem State.setModel_ibufDraw (t : Table) (h : Context) : (s.setModel t h).ibufDraw = s.ibufDraw := rfl
@[simp] theorem State.setModel_obufDraw (t : Table) (h : Context) : (s.setModel t h).obufDraw = s.obufDraw := rfl
@[simp] theorem State.setModel_draws (t : Table) (h : Context) : (s.setModel t h).draws = s.draws := rfl
@[simp] theorem State.setModel_agenda (t : Table) (h : Context) : (s.setModel t h).agenda = s.agenda := rfl

/-! `setSym` -/

@[simp] theorem State.setSym_runState (a : Symbol) : (s.setSym a).runState = s.runState := rfl
@[simp] theorem State.setSym_mode (a : Symbol) : (s.setSym a).mode = s.mode := rfl
@[simp] theorem State.setSym_pend (a : Symbol) : (s.setSym a).pend = s.pend := rfl
@[simp] theorem State.setSym_fault (a : Symbol) : (s.setSym a).fault = s.fault := rfl
@[simp] theorem State.setSym_lo (a : Symbol) : (s.setSym a).lo = s.lo := rfl
@[simp] theorem State.setSym_hi (a : Symbol) : (s.setSym a).hi = s.hi := rfl
@[simp] theorem State.setSym_value (a : Symbol) : (s.setSym a).value = s.value := rfl
@[simp] theorem State.setSym_straddle (a : Symbol) : (s.setSym a).straddle = s.straddle := rfl
@[simp] theorem State.setSym_cursor (a : Symbol) : (s.setSym a).cursor = s.cursor := rfl
@[simp] theorem State.setSym_runLen (a : Symbol) : (s.setSym a).runLen = s.runLen := rfl
@[simp] theorem State.setSym_runW (a : Symbol) : (s.setSym a).runW = s.runW := rfl
@[simp] theorem State.setSym_outLen (a : Symbol) : (s.setSym a).outLen = s.outLen := rfl
@[simp] theorem State.setSym_sym (a : Symbol) : (s.setSym a).sym = a := rfl
@[simp] theorem State.setSym_symValid (a : Symbol) : (s.setSym a).symValid = true := rfl
@[simp] theorem State.setSym_symCount (a : Symbol) : (s.setSym a).symCount = s.symCount := rfl
@[simp] theorem State.setSym_maxord (a : Symbol) : (s.setSym a).maxord = s.maxord := rfl
@[simp] theorem State.setSym_inLen (a : Symbol) : (s.setSym a).inLen = s.inLen := rfl
@[simp] theorem State.setSym_ibuf (a : Symbol) : (s.setSym a).ibuf = s.ibuf := rfl
@[simp] theorem State.setSym_obuf (a : Symbol) : (s.setSym a).obuf = s.obuf := rfl
@[simp] theorem State.setSym_table (a : Symbol) : (s.setSym a).table = s.table := rfl
@[simp] theorem State.setSym_hist (a : Symbol) : (s.setSym a).hist = s.hist := rfl
@[simp] theorem State.setSym_readData (a : Symbol) : (s.setSym a).readData = s.readData := rfl
@[simp] theorem State.setSym_ibufDraw (a : Symbol) : (s.setSym a).ibufDraw = s.ibufDraw := rfl
@[simp] theorem State.setSym_obufDraw (a : Symbol) : (s.setSym a).obufDraw = s.obufDraw := rfl
@[simp] theorem State.setSym_draws (a : Symbol) : (s.setSym a).draws = s.draws := rfl
@[simp] theorem State.setSym_agenda (a : Symbol) : (s.setSym a).agenda = s.agenda := rfl

/-! `countSymbol` -/

@[simp] theorem State.countSymbol_runState : (s.countSymbol).runState = s.runState := rfl
@[simp] theorem State.countSymbol_mode : (s.countSymbol).mode = s.mode := rfl
@[simp] theorem State.countSymbol_pend : (s.countSymbol).pend = s.pend := rfl
@[simp] theorem State.countSymbol_fault : (s.countSymbol).fault = s.fault := rfl
@[simp] theorem State.countSymbol_lo : (s.countSymbol).lo = s.lo := rfl
@[simp] theorem State.countSymbol_hi : (s.countSymbol).hi = s.hi := rfl
@[simp] theorem State.countSymbol_value : (s.countSymbol).value = s.value := rfl
@[simp] theorem State.countSymbol_straddle : (s.countSymbol).straddle = s.straddle := rfl
@[simp] theorem State.countSymbol_cursor : (s.countSymbol).cursor = s.cursor := rfl
@[simp] theorem State.countSymbol_runLen : (s.countSymbol).runLen = s.runLen := rfl
@[simp] theorem State.countSymbol_runW : (s.countSymbol).runW = s.runW := rfl
@[simp] theorem State.countSymbol_outLen : (s.countSymbol).outLen = s.outLen := rfl
@[simp] theorem State.countSymbol_sym : (s.countSymbol).sym = s.sym := rfl
@[simp] theorem State.countSymbol_symValid : (s.countSymbol).symValid = s.symValid := rfl
@[simp] theorem State.countSymbol_symCount : (s.countSymbol).symCount = s.symCount + 1 := rfl
@[simp] theorem State.countSymbol_maxord : (s.countSymbol).maxord = s.maxord := rfl
@[simp] theorem State.countSymbol_inLen : (s.countSymbol).inLen = s.inLen := rfl
@[simp] theorem State.countSymbol_ibuf : (s.countSymbol).ibuf = s.ibuf := rfl
@[simp] theorem State.countSymbol_obuf : (s.countSymbol).obuf = s.obuf := rfl
@[simp] theorem State.countSymbol_table : (s.countSymbol).table = s.table := rfl
@[simp] theorem State.countSymbol_hist : (s.countSymbol).hist = s.hist := rfl
@[simp] theorem State.countSymbol_readData : (s.countSymbol).readData = s.readData := rfl
@[simp] theorem State.countSymbol_ibufDraw : (s.countSymbol).ibufDraw = s.ibufDraw := rfl
@[simp] theorem State.countSymbol_obufDraw : (s.countSymbol).obufDraw = s.obufDraw := rfl
@[simp] theorem State.countSymbol_draws : (s.countSymbol).draws = s.draws := rfl
@[simp] theorem State.countSymbol_agenda : (s.countSymbol).agenda = s.agenda := rfl

/-! `terminate` -/

@[simp] theorem State.terminate_runState : (s.terminate).runState = .terminated := rfl
@[simp] theorem State.terminate_mode : (s.terminate).mode = s.mode := rfl
@[simp] theorem State.terminate_pend : (s.terminate).pend = s.pend := rfl
@[simp] theorem State.terminate_fault : (s.terminate).fault = s.fault := rfl
@[simp] theorem State.terminate_lo : (s.terminate).lo = s.lo := rfl
@[simp] theorem State.terminate_hi : (s.terminate).hi = s.hi := rfl
@[simp] theorem State.terminate_value : (s.terminate).value = s.value := rfl
@[simp] theorem State.terminate_straddle : (s.terminate).straddle = s.straddle := rfl
@[simp] theorem State.terminate_cursor : (s.terminate).cursor = s.cursor := rfl
@[simp] theorem State.terminate_runLen : (s.terminate).runLen = s.runLen := rfl
@[simp] theorem State.terminate_runW : (s.terminate).runW = s.runW := rfl
@[simp] theorem State.terminate_outLen : (s.terminate).outLen = s.outLen := rfl
@[simp] theorem State.terminate_sym : (s.terminate).sym = s.sym := rfl
@[simp] theorem State.terminate_symValid : (s.terminate).symValid = s.symValid := rfl
@[simp] theorem State.terminate_symCount : (s.terminate).symCount = s.symCount := rfl
@[simp] theorem State.terminate_maxord : (s.terminate).maxord = s.maxord := rfl
@[simp] theorem State.terminate_inLen : (s.terminate).inLen = s.inLen := rfl
@[simp] theorem State.terminate_ibuf : (s.terminate).ibuf = s.ibuf := rfl
@[simp] theorem State.terminate_obuf : (s.terminate).obuf = s.obuf := rfl
@[simp] theorem State.terminate_table : (s.terminate).table = s.table := rfl
@[simp] theorem State.terminate_hist : (s.terminate).hist = s.hist := rfl
@[simp] theorem State.terminate_readData : (s.terminate).readData = s.readData := rfl
@[simp] theorem State.terminate_ibufDraw : (s.terminate).ibufDraw = s.ibufDraw := rfl
@[simp] theorem State.terminate_obufDraw : (s.terminate).obufDraw = s.obufDraw := rfl
@[simp] theorem State.terminate_draws : (s.terminate).draws = s.draws := rfl
@[simp] theorem State.terminate_agenda : (s.terminate).agenda = s.agenda := rfl

/-! `latch` -/

@[simp] theorem State.latch_runState (w : Word) : (s.latch w).runState = s.runState := rfl
@[simp] theorem State.latch_mode (w : Word) : (s.latch w).mode = s.mode := rfl
@[simp] theorem State.latch_pend (w : Word) : (s.latch w).pend = some w := rfl
@[simp] theorem State.latch_fault (w : Word) : (s.latch w).fault = s.fault := rfl
@[simp] theorem State.latch_lo (w : Word) : (s.latch w).lo = s.lo := rfl
@[simp] theorem State.latch_hi (w : Word) : (s.latch w).hi = s.hi := rfl
@[simp] theorem State.latch_value (w : Word) : (s.latch w).value = s.value := rfl
@[simp] theorem State.latch_straddle (w : Word) : (s.latch w).straddle = s.straddle := rfl
@[simp] theorem State.latch_cursor (w : Word) : (s.latch w).cursor = s.cursor := rfl
@[simp] theorem State.latch_runLen (w : Word) : (s.latch w).runLen = s.runLen := rfl
@[simp] theorem State.latch_runW (w : Word) : (s.latch w).runW = s.runW := rfl
@[simp] theorem State.latch_outLen (w : Word) : (s.latch w).outLen = s.outLen := rfl
@[simp] theorem State.latch_sym (w : Word) : (s.latch w).sym = s.sym := rfl
@[simp] theorem State.latch_symValid (w : Word) : (s.latch w).symValid = s.symValid := rfl
@[simp] theorem State.latch_symCount (w : Word) : (s.latch w).symCount = s.symCount := rfl
@[simp] theorem State.latch_maxord (w : Word) : (s.latch w).maxord = s.maxord := rfl
@[simp] theorem State.latch_inLen (w : Word) : (s.latch w).inLen = s.inLen := rfl
@[simp] theorem State.latch_ibuf (w : Word) : (s.latch w).ibuf = s.ibuf := rfl
@[simp] theorem State.latch_obuf (w : Word) : (s.latch w).obuf = s.obuf := rfl
@[simp] theorem State.latch_table (w : Word) : (s.latch w).table = s.table := rfl
@[simp] theorem State.latch_hist (w : Word) : (s.latch w).hist = s.hist := rfl
@[simp] theorem State.latch_readData (w : Word) : (s.latch w).readData = s.readData := rfl
@[simp] theorem State.latch_ibufDraw (w : Word) : (s.latch w).ibufDraw = s.ibufDraw := rfl
@[simp] theorem State.latch_obufDraw (w : Word) : (s.latch w).obufDraw = s.obufDraw := rfl
@[simp] theorem State.latch_draws (w : Word) : (s.latch w).draws = s.draws := rfl
@[simp] theorem State.latch_agenda (w : Word) : (s.latch w).agenda = s.agenda := rfl

/-! `retire` -/

@[simp] theorem State.retire_runState : (s.retire).runState = s.runState := rfl
@[simp] theorem State.retire_mode : (s.retire).mode = s.mode := rfl
@[simp] theorem State.retire_pend : (s.retire).pend = none := rfl
@[simp] theorem State.retire_fault : (s.retire).fault = s.fault := rfl
@[simp] theorem State.retire_lo : (s.retire).lo = s.lo := rfl
@[simp] theorem State.retire_hi : (s.retire).hi = s.hi := rfl
@[simp] theorem State.retire_value : (s.retire).value = s.value := rfl
@[simp] theorem State.retire_straddle : (s.retire).straddle = s.straddle := rfl
@[simp] theorem State.retire_cursor : (s.retire).cursor = s.cursor := rfl
@[simp] theorem State.retire_runLen : (s.retire).runLen = s.runLen := rfl
@[simp] theorem State.retire_runW : (s.retire).runW = s.runW := rfl
@[simp] theorem State.retire_outLen : (s.retire).outLen = s.outLen := rfl
@[simp] theorem State.retire_sym : (s.retire).sym = s.sym := rfl
@[simp] theorem State.retire_symValid : (s.retire).symValid = s.symValid := rfl
@[simp] theorem State.retire_symCount : (s.retire).symCount = s.symCount := rfl
@[simp] theorem State.retire_maxord : (s.retire).maxord = s.maxord := rfl
@[simp] theorem State.retire_inLen : (s.retire).inLen = s.inLen := rfl
@[simp] theorem State.retire_ibuf : (s.retire).ibuf = s.ibuf := rfl
@[simp] theorem State.retire_obuf : (s.retire).obuf = s.obuf := rfl
@[simp] theorem State.retire_table : (s.retire).table = s.table := rfl
@[simp] theorem State.retire_hist : (s.retire).hist = s.hist := rfl
@[simp] theorem State.retire_readData : (s.retire).readData = s.readData := rfl
@[simp] theorem State.retire_ibufDraw : (s.retire).ibufDraw = s.ibufDraw := rfl
@[simp] theorem State.retire_obufDraw : (s.retire).obufDraw = s.obufDraw := rfl
@[simp] theorem State.retire_draws : (s.retire).draws = s.draws := rfl
@[simp] theorem State.retire_agenda : (s.retire).agenda = s.agenda := rfl

/-! `deliver` -/

@[simp] theorem State.deliver_runState (w : Word) : (s.deliver w).runState = s.runState := rfl
@[simp] theorem State.deliver_mode (w : Word) : (s.deliver w).mode = s.mode := rfl
@[simp] theorem State.deliver_pend (w : Word) : (s.deliver w).pend = s.pend := rfl
@[simp] theorem State.deliver_fault (w : Word) : (s.deliver w).fault = s.fault := rfl
@[simp] theorem State.deliver_lo (w : Word) : (s.deliver w).lo = s.lo := rfl
@[simp] theorem State.deliver_hi (w : Word) : (s.deliver w).hi = s.hi := rfl
@[simp] theorem State.deliver_value (w : Word) : (s.deliver w).value = s.value := rfl
@[simp] theorem State.deliver_straddle (w : Word) : (s.deliver w).straddle = s.straddle := rfl
@[simp] theorem State.deliver_cursor (w : Word) : (s.deliver w).cursor = s.cursor := rfl
@[simp] theorem State.deliver_runLen (w : Word) : (s.deliver w).runLen = s.runLen := rfl
@[simp] theorem State.deliver_runW (w : Word) : (s.deliver w).runW = s.runW := rfl
@[simp] theorem State.deliver_outLen (w : Word) : (s.deliver w).outLen = s.outLen := rfl
@[simp] theorem State.deliver_sym (w : Word) : (s.deliver w).sym = s.sym := rfl
@[simp] theorem State.deliver_symValid (w : Word) : (s.deliver w).symValid = s.symValid := rfl
@[simp] theorem State.deliver_symCount (w : Word) : (s.deliver w).symCount = s.symCount := rfl
@[simp] theorem State.deliver_maxord (w : Word) : (s.deliver w).maxord = s.maxord := rfl
@[simp] theorem State.deliver_inLen (w : Word) : (s.deliver w).inLen = s.inLen := rfl
@[simp] theorem State.deliver_ibuf (w : Word) : (s.deliver w).ibuf = s.ibuf := rfl
@[simp] theorem State.deliver_obuf (w : Word) : (s.deliver w).obuf = s.obuf := rfl
@[simp] theorem State.deliver_table (w : Word) : (s.deliver w).table = s.table := rfl
@[simp] theorem State.deliver_hist (w : Word) : (s.deliver w).hist = s.hist := rfl
@[simp] theorem State.deliver_readData (w : Word) : (s.deliver w).readData = some w := rfl
@[simp] theorem State.deliver_ibufDraw (w : Word) : (s.deliver w).ibufDraw = s.ibufDraw := rfl
@[simp] theorem State.deliver_obufDraw (w : Word) : (s.deliver w).obufDraw = s.obufDraw := rfl
@[simp] theorem State.deliver_draws (w : Word) : (s.deliver w).draws = s.draws := rfl
@[simp] theorem State.deliver_agenda (w : Word) : (s.deliver w).agenda = s.agenda := rfl

/-! `deliverFree` -/

@[simp] theorem State.deliverFree_runState : (s.deliverFree).runState = s.runState := rfl
@[simp] theorem State.deliverFree_mode : (s.deliverFree).mode = s.mode := rfl
@[simp] theorem State.deliverFree_pend : (s.deliverFree).pend = s.pend := rfl
@[simp] theorem State.deliverFree_fault : (s.deliverFree).fault = s.fault := rfl
@[simp] theorem State.deliverFree_lo : (s.deliverFree).lo = s.lo := rfl
@[simp] theorem State.deliverFree_hi : (s.deliverFree).hi = s.hi := rfl
@[simp] theorem State.deliverFree_value : (s.deliverFree).value = s.value := rfl
@[simp] theorem State.deliverFree_straddle : (s.deliverFree).straddle = s.straddle := rfl
@[simp] theorem State.deliverFree_cursor : (s.deliverFree).cursor = s.cursor := rfl
@[simp] theorem State.deliverFree_runLen : (s.deliverFree).runLen = s.runLen := rfl
@[simp] theorem State.deliverFree_runW : (s.deliverFree).runW = s.runW := rfl
@[simp] theorem State.deliverFree_outLen : (s.deliverFree).outLen = s.outLen := rfl
@[simp] theorem State.deliverFree_sym : (s.deliverFree).sym = s.sym := rfl
@[simp] theorem State.deliverFree_symValid : (s.deliverFree).symValid = s.symValid := rfl
@[simp] theorem State.deliverFree_symCount : (s.deliverFree).symCount = s.symCount := rfl
@[simp] theorem State.deliverFree_maxord : (s.deliverFree).maxord = s.maxord := rfl
@[simp] theorem State.deliverFree_inLen : (s.deliverFree).inLen = s.inLen := rfl
@[simp] theorem State.deliverFree_ibuf : (s.deliverFree).ibuf = s.ibuf := rfl
@[simp] theorem State.deliverFree_obuf : (s.deliverFree).obuf = s.obuf := rfl
@[simp] theorem State.deliverFree_table : (s.deliverFree).table = s.table := rfl
@[simp] theorem State.deliverFree_hist : (s.deliverFree).hist = s.hist := rfl
@[simp] theorem State.deliverFree_readData : (s.deliverFree).readData = some (Config.freeReadWord s.draws) := rfl
@[simp] theorem State.deliverFree_ibufDraw : (s.deliverFree).ibufDraw = s.ibufDraw := rfl
@[simp] theorem State.deliverFree_obufDraw : (s.deliverFree).obufDraw = s.obufDraw := rfl
@[simp] theorem State.deliverFree_draws : (s.deliverFree).draws = s.draws + 1 := rfl
@[simp] theorem State.deliverFree_agenda : (s.deliverFree).agenda = s.agenda := rfl

/-! `setConfig` -/

@[simp] theorem State.setConfig_runState (v : Word) : (s.setConfig v).runState = s.runState := rfl
@[simp] theorem State.setConfig_mode (v : Word) : (s.setConfig v).mode = s.mode := rfl
@[simp] theorem State.setConfig_pend (v : Word) : (s.setConfig v).pend = s.pend := rfl
@[simp] theorem State.setConfig_fault (v : Word) : (s.setConfig v).fault = s.fault := rfl
@[simp] theorem State.setConfig_lo (v : Word) : (s.setConfig v).lo = s.lo := rfl
@[simp] theorem State.setConfig_hi (v : Word) : (s.setConfig v).hi = s.hi := rfl
@[simp] theorem State.setConfig_value (v : Word) : (s.setConfig v).value = s.value := rfl
@[simp] theorem State.setConfig_straddle (v : Word) : (s.setConfig v).straddle = s.straddle := rfl
@[simp] theorem State.setConfig_cursor (v : Word) : (s.setConfig v).cursor = s.cursor := rfl
@[simp] theorem State.setConfig_runLen (v : Word) : (s.setConfig v).runLen = s.runLen := rfl
@[simp] theorem State.setConfig_runW (v : Word) : (s.setConfig v).runW = s.runW := rfl
@[simp] theorem State.setConfig_outLen (v : Word) : (s.setConfig v).outLen = s.outLen := rfl
@[simp] theorem State.setConfig_sym (v : Word) : (s.setConfig v).sym = s.sym := rfl
@[simp] theorem State.setConfig_symValid (v : Word) : (s.setConfig v).symValid = s.symValid := rfl
@[simp] theorem State.setConfig_symCount (v : Word) : (s.setConfig v).symCount = s.symCount := rfl
@[simp] theorem State.setConfig_maxord (v : Word) : (s.setConfig v).maxord = v.extractLsb' 0 2 := rfl
@[simp] theorem State.setConfig_inLen (v : Word) : (s.setConfig v).inLen = s.inLen := rfl
@[simp] theorem State.setConfig_ibuf (v : Word) : (s.setConfig v).ibuf = s.ibuf := rfl
@[simp] theorem State.setConfig_obuf (v : Word) : (s.setConfig v).obuf = s.obuf := rfl
@[simp] theorem State.setConfig_table (v : Word) : (s.setConfig v).table = s.table := rfl
@[simp] theorem State.setConfig_hist (v : Word) : (s.setConfig v).hist = s.hist := rfl
@[simp] theorem State.setConfig_readData (v : Word) : (s.setConfig v).readData = s.readData := rfl
@[simp] theorem State.setConfig_ibufDraw (v : Word) : (s.setConfig v).ibufDraw = s.ibufDraw := rfl
@[simp] theorem State.setConfig_obufDraw (v : Word) : (s.setConfig v).obufDraw = s.obufDraw := rfl
@[simp] theorem State.setConfig_draws (v : Word) : (s.setConfig v).draws = s.draws := rfl
@[simp] theorem State.setConfig_agenda (v : Word) : (s.setConfig v).agenda = s.agenda := rfl

/-! `setInLen` -/

@[simp] theorem State.setInLen_runState (v : Word) : (s.setInLen v).runState = s.runState := rfl
@[simp] theorem State.setInLen_mode (v : Word) : (s.setInLen v).mode = s.mode := rfl
@[simp] theorem State.setInLen_pend (v : Word) : (s.setInLen v).pend = s.pend := rfl
@[simp] theorem State.setInLen_fault (v : Word) : (s.setInLen v).fault = s.fault := rfl
@[simp] theorem State.setInLen_lo (v : Word) : (s.setInLen v).lo = s.lo := rfl
@[simp] theorem State.setInLen_hi (v : Word) : (s.setInLen v).hi = s.hi := rfl
@[simp] theorem State.setInLen_value (v : Word) : (s.setInLen v).value = s.value := rfl
@[simp] theorem State.setInLen_straddle (v : Word) : (s.setInLen v).straddle = s.straddle := rfl
@[simp] theorem State.setInLen_cursor (v : Word) : (s.setInLen v).cursor = s.cursor := rfl
@[simp] theorem State.setInLen_runLen (v : Word) : (s.setInLen v).runLen = s.runLen := rfl
@[simp] theorem State.setInLen_runW (v : Word) : (s.setInLen v).runW = s.runW := rfl
@[simp] theorem State.setInLen_outLen (v : Word) : (s.setInLen v).outLen = s.outLen := rfl
@[simp] theorem State.setInLen_sym (v : Word) : (s.setInLen v).sym = s.sym := rfl
@[simp] theorem State.setInLen_symValid (v : Word) : (s.setInLen v).symValid = s.symValid := rfl
@[simp] theorem State.setInLen_symCount (v : Word) : (s.setInLen v).symCount = s.symCount := rfl
@[simp] theorem State.setInLen_maxord (v : Word) : (s.setInLen v).maxord = s.maxord := rfl
@[simp] theorem State.setInLen_inLen (v : Word) : (s.setInLen v).inLen = v.extractLsb' 0 20 := rfl
@[simp] theorem State.setInLen_ibuf (v : Word) : (s.setInLen v).ibuf = s.ibuf := rfl
@[simp] theorem State.setInLen_obuf (v : Word) : (s.setInLen v).obuf = s.obuf := rfl
@[simp] theorem State.setInLen_table (v : Word) : (s.setInLen v).table = s.table := rfl
@[simp] theorem State.setInLen_hist (v : Word) : (s.setInLen v).hist = s.hist := rfl
@[simp] theorem State.setInLen_readData (v : Word) : (s.setInLen v).readData = s.readData := rfl
@[simp] theorem State.setInLen_ibufDraw (v : Word) : (s.setInLen v).ibufDraw = s.ibufDraw := rfl
@[simp] theorem State.setInLen_obufDraw (v : Word) : (s.setInLen v).obufDraw = s.obufDraw := rfl
@[simp] theorem State.setInLen_draws (v : Word) : (s.setInLen v).draws = s.draws := rfl
@[simp] theorem State.setInLen_agenda (v : Word) : (s.setInLen v).agenda = s.agenda := rfl

/-! `setAgenda` -/

@[simp] theorem State.setAgenda_runState (l : List Event) : (s.setAgenda l).runState = s.runState := rfl
@[simp] theorem State.setAgenda_mode (l : List Event) : (s.setAgenda l).mode = s.mode := rfl
@[simp] theorem State.setAgenda_pend (l : List Event) : (s.setAgenda l).pend = s.pend := rfl
@[simp] theorem State.setAgenda_fault (l : List Event) : (s.setAgenda l).fault = s.fault := rfl
@[simp] theorem State.setAgenda_lo (l : List Event) : (s.setAgenda l).lo = s.lo := rfl
@[simp] theorem State.setAgenda_hi (l : List Event) : (s.setAgenda l).hi = s.hi := rfl
@[simp] theorem State.setAgenda_value (l : List Event) : (s.setAgenda l).value = s.value := rfl
@[simp] theorem State.setAgenda_straddle (l : List Event) : (s.setAgenda l).straddle = s.straddle := rfl
@[simp] theorem State.setAgenda_cursor (l : List Event) : (s.setAgenda l).cursor = s.cursor := rfl
@[simp] theorem State.setAgenda_runLen (l : List Event) : (s.setAgenda l).runLen = s.runLen := rfl
@[simp] theorem State.setAgenda_runW (l : List Event) : (s.setAgenda l).runW = s.runW := rfl
@[simp] theorem State.setAgenda_outLen (l : List Event) : (s.setAgenda l).outLen = s.outLen := rfl
@[simp] theorem State.setAgenda_sym (l : List Event) : (s.setAgenda l).sym = s.sym := rfl
@[simp] theorem State.setAgenda_symValid (l : List Event) : (s.setAgenda l).symValid = s.symValid := rfl
@[simp] theorem State.setAgenda_symCount (l : List Event) : (s.setAgenda l).symCount = s.symCount := rfl
@[simp] theorem State.setAgenda_maxord (l : List Event) : (s.setAgenda l).maxord = s.maxord := rfl
@[simp] theorem State.setAgenda_inLen (l : List Event) : (s.setAgenda l).inLen = s.inLen := rfl
@[simp] theorem State.setAgenda_ibuf (l : List Event) : (s.setAgenda l).ibuf = s.ibuf := rfl
@[simp] theorem State.setAgenda_obuf (l : List Event) : (s.setAgenda l).obuf = s.obuf := rfl
@[simp] theorem State.setAgenda_table (l : List Event) : (s.setAgenda l).table = s.table := rfl
@[simp] theorem State.setAgenda_hist (l : List Event) : (s.setAgenda l).hist = s.hist := rfl
@[simp] theorem State.setAgenda_readData (l : List Event) : (s.setAgenda l).readData = s.readData := rfl
@[simp] theorem State.setAgenda_ibufDraw (l : List Event) : (s.setAgenda l).ibufDraw = s.ibufDraw := rfl
@[simp] theorem State.setAgenda_obufDraw (l : List Event) : (s.setAgenda l).obufDraw = s.obufDraw := rfl
@[simp] theorem State.setAgenda_draws (l : List Event) : (s.setAgenda l).draws = s.draws := rfl
@[simp] theorem State.setAgenda_agenda (l : List Event) : (s.setAgenda l).agenda = l := rfl

/-! `putIbufWord` -/

@[simp] theorem State.putIbufWord_runState (a : Nat) (v : Word) : (s.putIbufWord a v).runState = s.runState := rfl
@[simp] theorem State.putIbufWord_mode (a : Nat) (v : Word) : (s.putIbufWord a v).mode = s.mode := rfl
@[simp] theorem State.putIbufWord_pend (a : Nat) (v : Word) : (s.putIbufWord a v).pend = s.pend := rfl
@[simp] theorem State.putIbufWord_fault (a : Nat) (v : Word) : (s.putIbufWord a v).fault = s.fault := rfl
@[simp] theorem State.putIbufWord_lo (a : Nat) (v : Word) : (s.putIbufWord a v).lo = s.lo := rfl
@[simp] theorem State.putIbufWord_hi (a : Nat) (v : Word) : (s.putIbufWord a v).hi = s.hi := rfl
@[simp] theorem State.putIbufWord_value (a : Nat) (v : Word) : (s.putIbufWord a v).value = s.value := rfl
@[simp] theorem State.putIbufWord_straddle (a : Nat) (v : Word) : (s.putIbufWord a v).straddle = s.straddle := rfl
@[simp] theorem State.putIbufWord_cursor (a : Nat) (v : Word) : (s.putIbufWord a v).cursor = s.cursor := rfl
@[simp] theorem State.putIbufWord_runLen (a : Nat) (v : Word) : (s.putIbufWord a v).runLen = s.runLen := rfl
@[simp] theorem State.putIbufWord_runW (a : Nat) (v : Word) : (s.putIbufWord a v).runW = s.runW := rfl
@[simp] theorem State.putIbufWord_outLen (a : Nat) (v : Word) : (s.putIbufWord a v).outLen = s.outLen := rfl
@[simp] theorem State.putIbufWord_sym (a : Nat) (v : Word) : (s.putIbufWord a v).sym = s.sym := rfl
@[simp] theorem State.putIbufWord_symValid (a : Nat) (v : Word) : (s.putIbufWord a v).symValid = s.symValid := rfl
@[simp] theorem State.putIbufWord_symCount (a : Nat) (v : Word) : (s.putIbufWord a v).symCount = s.symCount := rfl
@[simp] theorem State.putIbufWord_maxord (a : Nat) (v : Word) : (s.putIbufWord a v).maxord = s.maxord := rfl
@[simp] theorem State.putIbufWord_inLen (a : Nat) (v : Word) : (s.putIbufWord a v).inLen = s.inLen := rfl
@[simp] theorem State.putIbufWord_obuf (a : Nat) (v : Word) : (s.putIbufWord a v).obuf = s.obuf := rfl
@[simp] theorem State.putIbufWord_table (a : Nat) (v : Word) : (s.putIbufWord a v).table = s.table := rfl
@[simp] theorem State.putIbufWord_hist (a : Nat) (v : Word) : (s.putIbufWord a v).hist = s.hist := rfl
@[simp] theorem State.putIbufWord_readData (a : Nat) (v : Word) : (s.putIbufWord a v).readData = s.readData := rfl
@[simp] theorem State.putIbufWord_ibufDraw (a : Nat) (v : Word) : (s.putIbufWord a v).ibufDraw = s.ibufDraw := rfl
@[simp] theorem State.putIbufWord_obufDraw (a : Nat) (v : Word) : (s.putIbufWord a v).obufDraw = s.obufDraw := rfl
@[simp] theorem State.putIbufWord_draws (a : Nat) (v : Word) : (s.putIbufWord a v).draws = s.draws := rfl
@[simp] theorem State.putIbufWord_agenda (a : Nat) (v : Word) : (s.putIbufWord a v).agenda = s.agenda := rfl

/-! `putObit` -/

@[simp] theorem State.putObit_runState (i : Nat) (v : Bool) : (s.putObit i v).runState = s.runState := rfl
@[simp] theorem State.putObit_mode (i : Nat) (v : Bool) : (s.putObit i v).mode = s.mode := rfl
@[simp] theorem State.putObit_pend (i : Nat) (v : Bool) : (s.putObit i v).pend = s.pend := rfl
@[simp] theorem State.putObit_fault (i : Nat) (v : Bool) : (s.putObit i v).fault = s.fault := rfl
@[simp] theorem State.putObit_lo (i : Nat) (v : Bool) : (s.putObit i v).lo = s.lo := rfl
@[simp] theorem State.putObit_hi (i : Nat) (v : Bool) : (s.putObit i v).hi = s.hi := rfl
@[simp] theorem State.putObit_value (i : Nat) (v : Bool) : (s.putObit i v).value = s.value := rfl
@[simp] theorem State.putObit_straddle (i : Nat) (v : Bool) : (s.putObit i v).straddle = s.straddle := rfl
@[simp] theorem State.putObit_cursor (i : Nat) (v : Bool) : (s.putObit i v).cursor = s.cursor := rfl
@[simp] theorem State.putObit_runLen (i : Nat) (v : Bool) : (s.putObit i v).runLen = s.runLen := rfl
@[simp] theorem State.putObit_runW (i : Nat) (v : Bool) : (s.putObit i v).runW = s.runW := rfl
@[simp] theorem State.putObit_outLen (i : Nat) (v : Bool) : (s.putObit i v).outLen = s.outLen := rfl
@[simp] theorem State.putObit_sym (i : Nat) (v : Bool) : (s.putObit i v).sym = s.sym := rfl
@[simp] theorem State.putObit_symValid (i : Nat) (v : Bool) : (s.putObit i v).symValid = s.symValid := rfl
@[simp] theorem State.putObit_symCount (i : Nat) (v : Bool) : (s.putObit i v).symCount = s.symCount := rfl
@[simp] theorem State.putObit_maxord (i : Nat) (v : Bool) : (s.putObit i v).maxord = s.maxord := rfl
@[simp] theorem State.putObit_inLen (i : Nat) (v : Bool) : (s.putObit i v).inLen = s.inLen := rfl
@[simp] theorem State.putObit_ibuf (i : Nat) (v : Bool) : (s.putObit i v).ibuf = s.ibuf := rfl
@[simp] theorem State.putObit_obuf (i : Nat) (v : Bool) : (s.putObit i v).obuf = s.obuf.put (streamByte obufBase i)
      (setBit (s.obufByte (streamByte obufBase i)) (streamPlace i) v) := rfl
@[simp] theorem State.putObit_table (i : Nat) (v : Bool) : (s.putObit i v).table = s.table := rfl
@[simp] theorem State.putObit_hist (i : Nat) (v : Bool) : (s.putObit i v).hist = s.hist := rfl
@[simp] theorem State.putObit_readData (i : Nat) (v : Bool) : (s.putObit i v).readData = s.readData := rfl
@[simp] theorem State.putObit_ibufDraw (i : Nat) (v : Bool) : (s.putObit i v).ibufDraw = s.ibufDraw := rfl
@[simp] theorem State.putObit_obufDraw (i : Nat) (v : Bool) : (s.putObit i v).obufDraw = s.obufDraw := rfl
@[simp] theorem State.putObit_draws (i : Nat) (v : Bool) : (s.putObit i v).draws = s.draws := rfl
@[simp] theorem State.putObit_agenda (i : Nat) (v : Bool) : (s.putObit i v).agenda = s.agenda := rfl

/-! `raise` -/

@[simp] theorem State.raise_runState (c : FaultCode) : (s.raise c).runState = .faulted := rfl
@[simp] theorem State.raise_mode (c : FaultCode) : (s.raise c).mode = s.mode := rfl
@[simp] theorem State.raise_pend (c : FaultCode) : (s.raise c).pend = none := rfl
@[simp] theorem State.raise_fault (c : FaultCode) : (s.raise c).fault = c := rfl
@[simp] theorem State.raise_lo (c : FaultCode) : (s.raise c).lo = Config.freeLo s.draws := rfl
@[simp] theorem State.raise_hi (c : FaultCode) : (s.raise c).hi = Config.freeHi s.draws := rfl
@[simp] theorem State.raise_value (c : FaultCode) : (s.raise c).value = Config.freeValue s.draws := rfl
@[simp] theorem State.raise_straddle (c : FaultCode) : (s.raise c).straddle = Config.freeStraddle s.draws := rfl
@[simp] theorem State.raise_cursor (c : FaultCode) : (s.raise c).cursor = Config.freeCursor s.draws := rfl
@[simp] theorem State.raise_runLen (c : FaultCode) : (s.raise c).runLen = Config.freeRunLen s.draws := rfl
@[simp] theorem State.raise_runW (c : FaultCode) : (s.raise c).runW = Config.freeRunW s.draws := rfl
@[simp] theorem State.raise_outLen (c : FaultCode) : (s.raise c).outLen = Config.freeOutLen s.draws := rfl
@[simp] theorem State.raise_sym (c : FaultCode) : (s.raise c).sym = Config.freeSym s.draws := rfl
@[simp] theorem State.raise_symValid (c : FaultCode) : (s.raise c).symValid = false := rfl
@[simp] theorem State.raise_symCount (c : FaultCode) : (s.raise c).symCount = Config.freeSymCount s.draws := rfl
@[simp] theorem State.raise_maxord (c : FaultCode) : (s.raise c).maxord = s.maxord := rfl
@[simp] theorem State.raise_inLen (c : FaultCode) : (s.raise c).inLen = s.inLen := rfl
@[simp] theorem State.raise_ibuf (c : FaultCode) : (s.raise c).ibuf = s.ibuf := rfl
@[simp] theorem State.raise_obuf (c : FaultCode) : (s.raise c).obuf = [] := rfl
@[simp] theorem State.raise_table (c : FaultCode) : (s.raise c).table = Config.freeTable s.draws := rfl
@[simp] theorem State.raise_hist (c : FaultCode) : (s.raise c).hist = Config.freeHist s.draws := rfl
@[simp] theorem State.raise_readData (c : FaultCode) : (s.raise c).readData = s.readData := rfl
@[simp] theorem State.raise_ibufDraw (c : FaultCode) : (s.raise c).ibufDraw = s.ibufDraw := rfl
@[simp] theorem State.raise_obufDraw (c : FaultCode) : (s.raise c).obufDraw = s.draws := rfl
@[simp] theorem State.raise_draws (c : FaultCode) : (s.raise c).draws = s.draws + 1 := rfl
@[simp] theorem State.raise_agenda (c : FaultCode) : (s.raise c).agenda = s.agenda := rfl

/-! `startRun` -/

@[simp] theorem State.startRun_runState (m : Mode) (v k : Nat) (n : BitVec 20) : (s.startRun m v k n).runState = .active := rfl
@[simp] theorem State.startRun_mode (m : Mode) (v k : Nat) (n : BitVec 20) : (s.startRun m v k n).mode = m := rfl
@[simp] theorem State.startRun_pend (m : Mode) (v k : Nat) (n : BitVec 20) : (s.startRun m v k n).pend = s.pend := rfl
@[simp] theorem State.startRun_fault (m : Mode) (v k : Nat) (n : BitVec 20) : (s.startRun m v k n).fault = .noFault := rfl
@[simp] theorem State.startRun_lo (m : Mode) (v k : Nat) (n : BitVec 20) : (s.startRun m v k n).lo = BitVec.ofNat 64 0 := rfl
@[simp] theorem State.startRun_hi (m : Mode) (v k : Nat) (n : BitVec 20) : (s.startRun m v k n).hi = BitVec.ofNat 64 Config.ONE := rfl
@[simp] theorem State.startRun_value (m : Mode) (v k : Nat) (n : BitVec 20) : (s.startRun m v k n).value = BitVec.ofNat 64 v := rfl
@[simp] theorem State.startRun_straddle (m : Mode) (v k : Nat) (n : BitVec 20) : (s.startRun m v k n).straddle = 0 := rfl
@[simp] theorem State.startRun_cursor (m : Mode) (v k : Nat) (n : BitVec 20) : (s.startRun m v k n).cursor = BitVec.ofNat 32 k := rfl
@[simp] theorem State.startRun_runLen (m : Mode) (v k : Nat) (n : BitVec 20) : (s.startRun m v k n).runLen = n := rfl
@[simp] theorem State.startRun_runW (m : Mode) (v k : Nat) (n : BitVec 20) : (s.startRun m v k n).runW = s.maxord := rfl
@[simp] theorem State.startRun_outLen (m : Mode) (v k : Nat) (n : BitVec 20) : (s.startRun m v k n).outLen = 0 := rfl
@[simp] theorem State.startRun_sym (m : Mode) (v k : Nat) (n : BitVec 20) : (s.startRun m v k n).sym = 0 := rfl
@[simp] theorem State.startRun_symValid (m : Mode) (v k : Nat) (n : BitVec 20) : (s.startRun m v k n).symValid = false := rfl
@[simp] theorem State.startRun_symCount (m : Mode) (v k : Nat) (n : BitVec 20) : (s.startRun m v k n).symCount = 0 := rfl
@[simp] theorem State.startRun_maxord (m : Mode) (v k : Nat) (n : BitVec 20) : (s.startRun m v k n).maxord = s.maxord := rfl
@[simp] theorem State.startRun_inLen (m : Mode) (v k : Nat) (n : BitVec 20) : (s.startRun m v k n).inLen = s.inLen := rfl
@[simp] theorem State.startRun_ibuf (m : Mode) (v k : Nat) (n : BitVec 20) : (s.startRun m v k n).ibuf = s.ibuf := rfl
@[simp] theorem State.startRun_obuf (m : Mode) (v k : Nat) (n : BitVec 20) : (s.startRun m v k n).obuf = s.obuf := rfl
@[simp] theorem State.startRun_table (m : Mode) (v k : Nat) (n : BitVec 20) : (s.startRun m v k n).table = [] := rfl
@[simp] theorem State.startRun_hist (m : Mode) (v k : Nat) (n : BitVec 20) : (s.startRun m v k n).hist = [] := rfl
@[simp] theorem State.startRun_readData (m : Mode) (v k : Nat) (n : BitVec 20) : (s.startRun m v k n).readData = s.readData := rfl
@[simp] theorem State.startRun_ibufDraw (m : Mode) (v k : Nat) (n : BitVec 20) : (s.startRun m v k n).ibufDraw = s.ibufDraw := rfl
@[simp] theorem State.startRun_obufDraw (m : Mode) (v k : Nat) (n : BitVec 20) : (s.startRun m v k n).obufDraw = s.obufDraw := rfl
@[simp] theorem State.startRun_draws (m : Mode) (v k : Nat) (n : BitVec 20) : (s.startRun m v k n).draws = s.draws := rfl
@[simp] theorem State.startRun_agenda (m : Mode) (v k : Nat) (n : BitVec 20) : (s.startRun m v k n).agenda = s.agenda := rfl

/-! `assertReset` -/

@[simp] theorem State.assertReset_runState : (s.assertReset).runState = .idle := rfl
@[simp] theorem State.assertReset_mode : (s.assertReset).mode = .encode := rfl
@[simp] theorem State.assertReset_pend : (s.assertReset).pend = none := rfl
@[simp] theorem State.assertReset_fault : (s.assertReset).fault = .noFault := rfl
@[simp] theorem State.assertReset_lo : (s.assertReset).lo = 0 := rfl
@[simp] theorem State.assertReset_hi : (s.assertReset).hi = 0 := rfl
@[simp] theorem State.assertReset_value : (s.assertReset).value = 0 := rfl
@[simp] theorem State.assertReset_straddle : (s.assertReset).straddle = 0 := rfl
@[simp] theorem State.assertReset_cursor : (s.assertReset).cursor = 0 := rfl
@[simp] theorem State.assertReset_runLen : (s.assertReset).runLen = 0 := rfl
@[simp] theorem State.assertReset_runW : (s.assertReset).runW = 2 := rfl
@[simp] theorem State.assertReset_outLen : (s.assertReset).outLen = 0 := rfl
@[simp] theorem State.assertReset_sym : (s.assertReset).sym = 0 := rfl
@[simp] theorem State.assertReset_symValid : (s.assertReset).symValid = false := rfl
@[simp] theorem State.assertReset_symCount : (s.assertReset).symCount = 0 := rfl
@[simp] theorem State.assertReset_maxord : (s.assertReset).maxord = 2 := rfl
@[simp] theorem State.assertReset_inLen : (s.assertReset).inLen = 0 := rfl
@[simp] theorem State.assertReset_ibuf : (s.assertReset).ibuf = [] := rfl
@[simp] theorem State.assertReset_obuf : (s.assertReset).obuf = [] := rfl
@[simp] theorem State.assertReset_table : (s.assertReset).table = [] := rfl
@[simp] theorem State.assertReset_hist : (s.assertReset).hist = [] := rfl
@[simp] theorem State.assertReset_readData : (s.assertReset).readData = s.readData := rfl
@[simp] theorem State.assertReset_ibufDraw : (s.assertReset).ibufDraw = s.draws := rfl
@[simp] theorem State.assertReset_obufDraw : (s.assertReset).obufDraw = s.draws := rfl
@[simp] theorem State.assertReset_draws : (s.assertReset).draws = s.draws + 1 := rfl
@[simp] theorem State.assertReset_agenda : (s.assertReset).agenda = s.agenda := rfl

end

end Sys2Proof.Machine
end

