-- ==== Sys2Proof/Laws/Memory.lean ====
section
/-! SUPPORT. The laws of the bit buffers: reading after writing byte by byte and bit by bit, and that every memory operation
keeps the canonical form and the window. -/

namespace Sys2Proof.Machine

/-! ## Bytes -/

@[simp] theorem Memory.get?_nil (a : Nat) : Memory.get? [] a = none := rfl

theorem Memory.get?_put_same (m : Memory) (a : Nat) (v : Byte) : (m.put a v).get? a = some v :=
  Assoc.find?_insert_same rfl

theorem Memory.get?_put_other {m : Memory} {a a' : Nat} {v : Byte} (h : a ≠ a') :
    (m.put a v).get? a' = m.get? a' :=
  Assoc.find?_insert_other h

/-- A byte reads as the last write to its address. -/
theorem Memory.get?_put (m : Memory) (a a' : Nat) (v : Byte) :
    (m.put a v).get? a' = if a = a' then some v else m.get? a' := by
  split
  · rename_i h; rw [h, Memory.get?_put_same]
  · exact Memory.get?_put_other ‹_›

/-- A write keeps the canonical form. -/
theorem Memory.wf_put {m : Memory} (h : m.wf) (a : Nat) (v : Byte) : (m.put a v).wf := Assoc.Sorted.insert h

theorem Memory.sound_nil (base : Nat) : Memory.Sound base [] := ⟨List.Pairwise.nil, by simp⟩

/-- A write inside the window keeps the buffer sound. -/
theorem Memory.Sound.put {base : Nat} {m : Memory} (h : Memory.Sound base m) {a : Nat} (v : Byte)
    (h₁ : base ≤ a) (h₂ : a < base + 0x10000) : Memory.Sound base (m.put a v) where
  wf := Memory.wf_put h.wf a v
  window e he := by
    rcases Assoc.mem_insert he with rfl | he
    · exact ⟨h₁, h₂⟩
    · exact h.window e he

/-- A word write of IBUF keeps it sound. -/
theorem Memory.Sound.putIbufWord {s : State} (h : Memory.Sound ibufBase s.ibuf) {a : Nat} (v : Word)
    (h₁ : ibufBase ≤ a) (h₂ : a + 3 < ibufBase + 0x10000) : Memory.Sound ibufBase (s.putIbufWord a v).ibuf := by
  refine (((h.put _ ?_ ?_).put _ ?_ ?_).put _ ?_ ?_).put _ ?_ ?_ <;> omega

/-! ## Bits -/

theorem getLsbD_setBit (b : Byte) (j i : Nat) (v : Bool) (hj : j < 8) :
    (setBit b j v).getLsbD i = if i = j then v else b.getLsbD i := by
  unfold setBit
  by_cases hi : i < 8
  · by_cases h : i = j
    · subst h; cases v <;> simp [hi]
    · have : ¬ j = i := fun e => h e.symm
      cases v
      · simp [h, hi]
      · simp [BitVec.getLsbD_twoPow, h, this]
  · have : i ≠ j := by omega
    simp [this, BitVec.getLsbD_of_ge _ _ (Nat.le_of_not_lt hi)]

theorem streamPlace_lt (i : Nat) : streamPlace i < 8 := by unfold streamPlace; omega

/-- Two stream bits share a byte and a place only if they are the same bit. -/
theorem stream_inj {base i j : Nat} (h : streamByte base i = streamByte base j) (h' : streamPlace i = streamPlace j) :
    i = j := by
  unfold streamByte at h; unfold streamPlace at h'; omega

/-- A byte of OBUF after a bit write. -/
theorem obufByte_putObit (s : State) (i : Nat) (v : Bool) (a : Nat) :
    (s.putObit i v).obufByte a =
      if streamByte obufBase i = a then setBit (s.obufByte a) (streamPlace i) v else s.obufByte a := by
  unfold State.obufByte
  simp only [State.putObit_obuf, State.putObit_obufDraw, Memory.get?_put]
  split
  · rename_i h; subst h; rfl
  · rfl

/-- The output stream after a bit write: that bit is written and every other bit is kept. -/
theorem obit_putObit (s : State) (i j : Nat) (v : Bool) :
    (s.putObit i v).obit j = if j = i then v else s.obit j := by
  unfold State.obit
  rw [obufByte_putObit]
  by_cases h : streamByte obufBase i = streamByte obufBase j
  · rw [if_pos h, getLsbD_setBit _ _ _ _ (streamPlace_lt i)]
    by_cases hp : streamPlace j = streamPlace i
    · have := stream_inj h hp.symm
      subst this; simp
    · have : j ≠ i := fun e => hp (e ▸ rfl)
      simp [hp, this]
  · have : j ≠ i := fun e => h (e ▸ rfl)
    simp [h, this]

/-! ## Updates that leave a buffer alone read its bytes as before -/

theorem obufByte_congr {s t : State} (h : t.obuf = s.obuf) (h' : t.obufDraw = s.obufDraw) (a : Nat) :
    t.obufByte a = s.obufByte a := by unfold State.obufByte; rw [h, h']

theorem ibufByte_congr {s t : State} (h : t.ibuf = s.ibuf) (h' : t.ibufDraw = s.ibufDraw) (a : Nat) :
    t.ibufByte a = s.ibufByte a := by unfold State.ibufByte; rw [h, h']

theorem obit_congr {s t : State} (h : t.obuf = s.obuf) (h' : t.obufDraw = s.obufDraw) (i : Nat) :
    t.obit i = s.obit i := by unfold State.obit; rw [obufByte_congr h h']

theorem ibit_congr {s t : State} (h : t.ibuf = s.ibuf) (h' : t.ibufDraw = s.ibufDraw) (i : Nat) :
    t.ibit i = s.ibit i := by unfold State.ibit; rw [ibufByte_congr h h']

end Sys2Proof.Machine
end

