-- ==== Sys2Proof/Laws/Model.lean ====
section
/-! SUPPORT. The laws of the context model's data: contexts, records, the table, and what each step of Observe can do. -/

namespace Sys2Proof

/-! ## Contexts -/

theorem contextCode_inj : ∀ {c d : Context}, contextCode c = contextCode d → c = d
  | [], [], _ => rfl
  | [], _ :: _, h => by simp only [contextCode] at h; omega
  | _ :: _, [], h => by simp only [contextCode] at h; omega
  | a :: c, b :: d, h => by
    simp only [contextCode] at h
    have ha := a.isLt
    have hb := b.isLt
    have h₁ : a.toNat = b.toNat := by omega
    have h₂ : contextCode c = contextCode d := by omega
    rw [BitVec.eq_of_toNat_eq h₁, contextCode_inj h₂]

/-- ctx(k) has exactly k symbols (R101). -/
theorem length_ctx {h : Context} {k : Nat} (hk : k ≤ h.length) : (ctx h k).length = k := by
  simp only [ctx, List.length_drop]; omega

theorem ctx_zero (h : Context) : ctx h 0 = [] := by simp [ctx]

/-! ## Reading the table after writing it -/

@[simp] theorem Table.record?_nil (c : Context) : Table.record? [] c = none := rfl

theorem Table.record?_put_same (t : Table) (c : Context) (r : CtxRecord) : (t.put c r).record? c = some r :=
  Machine.Assoc.find?_insert_same rfl

theorem Table.record?_put_other (t : Table) {c d : Context} (r : CtxRecord) (h : c ≠ d) :
    (t.put c r).record? d = t.record? d :=
  Machine.Assoc.find?_insert_other (fun e => h (contextCode_inj e))

theorem Table.record?_put (t : Table) (c d : Context) (r : CtxRecord) :
    (t.put c r).record? d = if c = d then some r else t.record? d := by
  split
  · rename_i h; rw [h, Table.record?_put_same]
  · exact Table.record?_put_other t r ‹_›

/-! ## Counts -/

theorem CtxRecord.cnt_fresh (s a : Symbol) : (CtxRecord.fresh s).cnt a = if a = s then 1 else 0 := by
  unfold CtxRecord.cnt CtxRecord.fresh Machine.Assoc.find?
  by_cases h : a = s
  · simp [h]
  · have : s.toNat ≠ a.toNat := fun e => h (BitVec.eq_of_toNat_eq e.symm)
    simp [h, this]

theorem CtxRecord.cnt_bump (r : CtxRecord) (s a : Symbol) :
    (r.bump s).cnt a = if a = s then r.cnt s + 1 else r.cnt a := by
  unfold CtxRecord.bump
  by_cases h : a = s
  · subst h
    simp [CtxRecord.cnt, Machine.Assoc.find?_insert_same]
  · have : s.toNat ≠ a.toNat := fun e => h (BitVec.eq_of_toNat_eq e.symm)
    simp [CtxRecord.cnt, Machine.Assoc.find?_insert_other this, h]

@[simp] theorem CtxRecord.total_bump (r : CtxRecord) (s : Symbol) : (r.bump s).total = r.total + 1 := rfl

@[simp] theorem CtxRecord.total_fresh (s : Symbol) : (CtxRecord.fresh s).total = 1 := rfl

/-! ## The alphabet -/

namespace Machine

theorem mem_alphabet (a : Symbol) : a ∈ alphabet := by
  unfold alphabet
  refine List.mem_map.mpr ⟨a.toNat, List.mem_range.mpr a.isLt, ?_⟩
  simp

theorem nodup_alphabet : alphabet.Nodup := by
  unfold alphabet
  refine List.Nodup.map_on ?_ List.nodup_range
  intro x hx y hy h
  have hx' : x < 256 := List.mem_range.mp hx
  have hy' : y < 256 := List.mem_range.mp hy
  have := congrArg BitVec.toNat h
  simp only [BitVec.toNat_ofNat] at this
  omega

/-- A sum over the alphabet after one more is counted for s. -/
theorem sum_alphabet_bump (f g : Symbol → Nat) (s : Symbol) (hs : g s = f s + 1) (h : ∀ a, a ≠ s → g a = f a) :
    (alphabet.map g).sum = (alphabet.map f).sum + 1 := by
  have key : ∀ l : List Symbol, l.Nodup → (l.map g).sum = (l.map f).sum + if s ∈ l then 1 else 0 := by
    intro l hl
    induction l with
    | nil => simp
    | cons a l ih =>
      obtain ⟨ha, hl⟩ := List.nodup_cons.mp hl
      simp only [List.map_cons, List.sum_cons, ih hl, List.mem_cons]
      by_cases e : a = s
      · subst e; simp [hs, ha]; omega
      · have : ¬ s = a := fun x => e x.symm
        rw [h a e]; simp only [this, false_or]; omega
  simpa [mem_alphabet s] using key alphabet nodup_alphabet

end Machine

/-! ## Soundness -/

theorem CtxRecord.Sound.fresh {b : Config.Build} (hb : 1 ≤ Machine.countMax b) (s : Symbol) :
    (CtxRecord.fresh s).Sound b where
  sorted := by simp [CtxRecord.fresh, Machine.Assoc.Sorted]
  positive := by simp [CtxRecord.fresh]
  total_eq := by
    have := Machine.sum_alphabet_bump (fun _ => 0) (CtxRecord.fresh s).cnt s (by simp [CtxRecord.cnt_fresh])
      (by intro a ha; simp [CtxRecord.cnt_fresh, ha])
    simpa using this.symm
  total_pos := by simp
  total_le := by simpa using hb

theorem CtxRecord.Sound.bump {b : Config.Build} {r : CtxRecord} (h : r.Sound b) {s : Symbol}
    (hm : r.total + 1 ≤ Machine.countMax b) : (r.bump s).Sound b where
  sorted := h.sorted.insert
  positive e he := by
    rcases Machine.Assoc.mem_insert he with rfl | he
    · simp
    · exact h.positive e he
  total_eq := by
    have := Machine.sum_alphabet_bump r.cnt (r.bump s).cnt s (by simp [CtxRecord.cnt_bump])
      (by intro a ha; simp [CtxRecord.cnt_bump, ha])
    rw [this, CtxRecord.total_bump, h.total_eq]
  total_pos := by simp
  total_le := by simpa using hm

theorem Table.Sound.nil (b : Config.Build) (w : Nat) : Table.Sound b w [] :=
  ⟨List.Pairwise.nil, by simp, by simp⟩

/-- A record that is read is sound. -/
theorem Table.Sound.of_record? {b : Config.Build} {w : Nat} {t : Table} (h : t.Sound b w) {c : Context}
    {r : CtxRecord} (hr : t.record? c = some r) : r.Sound b := by
  obtain ⟨k, -, hm⟩ := Machine.Assoc.mem_of_find? hr
  exact h.records _ hm

/-- Writing over a context that is seen keeps the table sound. -/
theorem Table.Sound.put_seen {b : Config.Build} {w : Nat} {t : Table} (h : t.Sound b w) {c : Context}
    {r r' : CtxRecord} (hr : t.record? c = some r) (hs : r'.Sound b) : (t.put c r').Sound b w := by
  obtain ⟨k, hk, hm⟩ := Machine.Assoc.mem_of_find? hr
  have hk := contextCode_inj hk
  subst hk
  refine ⟨h.sorted.insert, fun e he => ?_, fun e he => ?_⟩
  · rcases Machine.Assoc.mem_insert he with rfl | he
    · exact h.short (_, r) hm
    · exact h.short _ he
  · rcases Machine.Assoc.mem_insert he with rfl | he
    · exact hs
    · exact h.records _ he

/-- Writing a sound record at a short context keeps the table sound. -/
theorem Table.Sound.put {b : Config.Build} {w : Nat} {t : Table} (h : t.Sound b w) {c : Context} {r : CtxRecord}
    (hc : c.length ≤ w) (hs : r.Sound b) : (t.put c r).Sound b w := by
  refine ⟨h.sorted.insert, fun e he => ?_, fun e he => ?_⟩
  · rcases Machine.Assoc.mem_insert he with rfl | he
    · exact hc
    · exact h.short _ he
  · rcases Machine.Assoc.mem_insert he with rfl | he
    · exact hs
    · exact h.records _ he

/-- Writing over a context that is seen keeps the number of records. -/
theorem Table.Fits.put_seen {b : Config.Build} {w : Nat} {t : Table} (h : t.Fits b) (hs : t.Sound b w) {c : Context}
    {r r' : CtxRecord} (hr : t.record? c = some r) : (t.put c r').Fits b := fun n hn => by
  rw [Table.put, Machine.Assoc.length_insert_of_some hs.sorted hr]; exact h n hn

/-- Creating a record below the capacity (R122). -/
theorem Table.Fits.put_new {b : Config.Build} {t : Table} {c : Context} {r : CtxRecord}
    (hr : t.record? c = none) (hf : Machine.tableIsFull b t = false) : (t.put c r).Fits b := fun n hn => by
  have : t.length < n := by simpa [Machine.tableIsFull, hn] using hf
  rw [Table.put, Machine.Assoc.length_insert_of_none hr]; omega

namespace Machine

/-! ## Observe -/

/-- What counting an observation can do: count it, below the limit, or raise CountOverflow. -/
theorem bumpRecord_cases (b : Config.Build) (t : Table) (c : Context) (r : CtxRecord) (s : Symbol) :
    (bumpRecord b t c r s = .ok (t.put c (r.bump s)) ∧ r.cnt s + 1 ≤ countMax b ∧ r.total + 1 ≤ countMax b) ∨
    (bumpRecord b t c r s = .error .countOverflow ∧ (countMax b < r.cnt s + 1 ∨ countMax b < r.total + 1)) := by
  unfold bumpRecord
  split
  · exact .inr ⟨rfl, ‹_›⟩
  · exact .inl ⟨rfl, by omega, by omega⟩

theorem bumpRecord_ok {b : Config.Build} {t t' : Table} {c : Context} {r : CtxRecord} {s : Symbol}
    (h : bumpRecord b t c r s = .ok t') :
    t' = t.put c (r.bump s) ∧ r.cnt s + 1 ≤ countMax b ∧ r.total + 1 ≤ countMax b := by
  rcases bumpRecord_cases b t c r s with ⟨h₁, h₂⟩ | ⟨h₁, -⟩
  · rw [h] at h₁; exact ⟨by injection h₁, h₂⟩
  · rw [h] at h₁; injection h₁

theorem bumpRecord_error {b : Config.Build} {t : Table} {c : Context} {r : CtxRecord} {s : Symbol} {e : FaultCode}
    (h : bumpRecord b t c r s = .error e) : e = .countOverflow := by
  rcases bumpRecord_cases b t c r s with ⟨h₁, -⟩ | ⟨h₁, -⟩
  · rw [h] at h₁; injection h₁
  · rw [h] at h₁; injection h₁

/-- What the order -1 step can do (R116). -/
theorem observeFloor_ok {b : Config.Build} {s : Symbol} {t t' : Table} (h : observeFloor b s t = .ok t') :
    t' = t ∨ ∃ r, t.record? [] = some r ∧ b.floorRecord = .increment ∧ bumpRecord b t [] r s = .ok t' := by
  unfold observeFloor at h
  split at h
  · exact .inr ⟨_, ‹_›, ‹_›, h⟩
  · injection h with h; exact .inl h.symm

/-- One pass of Observe's loop (R117 to R119). -/
theorem observeFrom_succ_ok {b : Config.Build} {h : Context} {s : Symbol} {k : Nat} {t t' : Table}
    (hok : observeFrom b h s (k + 1) t = .ok t') :
    (t.record? (ctx h k) = none ∧ tableIsFull b t = false ∧
      observeFrom b h s k (t.put (ctx h k) (CtxRecord.fresh s)) = .ok t') ∨
    (∃ r t₁, t.record? (ctx h k) = some r ∧ r.cnt s = 0 ∧ bumpRecord b t (ctx h k) r s = .ok t₁ ∧
      observeFrom b h s k t₁ = .ok t') ∨
    (∃ r, t.record? (ctx h k) = some r ∧ r.cnt s ≠ 0 ∧ bumpRecord b t (ctx h k) r s = .ok t') := by
  simp only [observeFrom] at hok
  split at hok
  · split at hok
    · injection hok
    · exact .inl ⟨‹_›, Bool.eq_false_iff.mpr ‹_›, hok⟩
  · split at hok
    · split at hok
      · injection hok
      · exact .inr (.inl ⟨_, _, ‹_›, ‹_›, ‹_›, hok⟩)
    · exact .inr (.inr ⟨_, ‹_›, ‹_›, hok⟩)

/-- The faults of Observe (R121, R122). -/
theorem observeFrom_error {b : Config.Build} {h : Context} {s : Symbol} {n : Nat} {t : Table} {e : FaultCode}
    (herr : observeFrom b h s n t = .error e) : e = .countOverflow ∨ e = .tableFull := by
  induction n generalizing t with
  | zero =>
    unfold observeFrom observeFloor at herr
    split at herr
    · exact .inl (bumpRecord_error herr)
    · injection herr
  | succ k ih =>
    simp only [observeFrom] at herr
    split at herr
    · split at herr
      · injection herr with herr; exact .inr herr.symm
      · exact ih herr
    · split at herr
      · split at herr
        · injection herr with herr
          exact .inl (herr ▸ bumpRecord_error ‹_›)
        · exact ih herr
      · exact .inl (bumpRecord_error herr)

/-- Counting an observation keeps the table sound. -/
theorem Sound.bumpRecord {b : Config.Build} {w : Nat} {t t' : Table} (hs : t.Sound b w) {c : Context} {r : CtxRecord}
    {s : Symbol} (hr : t.record? c = some r) (h : bumpRecord b t c r s = .ok t') : t'.Sound b w := by
  obtain ⟨rfl, -, h₂⟩ := bumpRecord_ok h
  exact hs.put_seen hr ((hs.of_record? hr).bump h₂)

/-- Observe keeps the table sound. -/
theorem Sound.observeFrom {b : Config.Build} (hb : 1 ≤ countMax b) {w : Nat} {h : Context} {s : Symbol} {n : Nat}
    (hw : h.length ≤ w) {t t' : Table} (hs : t.Sound b w) (hok : observeFrom b h s n t = .ok t') : t'.Sound b w := by
  induction n generalizing t with
  | zero =>
    rcases observeFloor_ok hok with rfl | ⟨r, hr, -, h'⟩
    · exact hs
    · exact Sound.bumpRecord hs hr h'
  | succ k ih =>
    rcases observeFrom_succ_ok hok with ⟨-, -, h'⟩ | ⟨r, t₁, hr, -, h₁, h'⟩ | ⟨r, hr, -, h'⟩
    · refine ih (hs.put ?_ (CtxRecord.Sound.fresh hb s)) h'
      simp only [ctx, List.length_drop]; omega
    · exact ih (Sound.bumpRecord hs hr h₁) h'
    · exact Sound.bumpRecord hs hr h'

/-- Observe keeps the table within its capacity (R122). -/
theorem Fits.observeFrom {b : Config.Build} (hb : 1 ≤ countMax b) {w : Nat} {h : Context} {s : Symbol} {n : Nat}
    (hw : h.length ≤ w) {t t' : Table} (hs : t.Sound b w) (hf : t.Fits b) (hok : observeFrom b h s n t = .ok t') :
    t'.Fits b := by
  induction n generalizing t with
  | zero =>
    rcases observeFloor_ok hok with rfl | ⟨r, hr, -, h'⟩
    · exact hf
    · obtain ⟨rfl, -⟩ := bumpRecord_ok h'; exact hf.put_seen hs hr
  | succ k ih =>
    rcases observeFrom_succ_ok hok with ⟨hr, hn, h'⟩ | ⟨r, t₁, hr, -, h₁, h'⟩ | ⟨r, hr, -, h'⟩
    · refine ih (hs.put ?_ (CtxRecord.Sound.fresh hb s)) (Table.Fits.put_new hr hn) h'
      simp only [ctx, List.length_drop]; omega
    · have hs₁ := Sound.bumpRecord hs hr h₁
      obtain ⟨rfl, -⟩ := bumpRecord_ok h₁
      exact ih hs₁ (hf.put_seen hs hr) h'
    · obtain ⟨rfl, -⟩ := bumpRecord_ok h'; exact hf.put_seen hs hr

/-- The slide keeps the history within the window (R120, R39(d)). -/
theorem length_slide {w : Nat} {h : Context} (s : Symbol) (hw : 1 ≤ w) (hh : h.length ≤ w) :
    (slide w h s).length ≤ w := by
  unfold slide; split <;> simp <;> omega

/-- What Observe can do: update T, then slide H (R115). -/
theorem observe_ok {b : Config.Build} {a : Symbol} {s t : State} (h : observe b a s = .ok t) :
    ∃ T, observeFrom b s.hist a (s.hist.length + 1) s.table = .ok T ∧
      t = s.setModel T (slide s.runW.toNat s.hist a) := by
  unfold observe at h
  split at h
  · injection h
  · injection h with h; exact ⟨_, ‹_›, h.symm⟩

theorem observe_error {b : Config.Build} {a : Symbol} {s : State} {e : FaultCode} (h : observe b a s = .error e) :
    e = .countOverflow ∨ e = .tableFull := by
  unfold observe at h
  split at h
  · injection h with h; exact h ▸ observeFrom_error ‹_›
  · injection h

end Machine

end Sys2Proof
end

