-- ==== Sys2Proof/Laws/Codec.lean ====
section
/-! SUPPORT. What each operation of the arithmetic codec can do, once each: if it ends in a state, which one; and which
fault codes it can raise. -/

namespace Sys2Proof.Machine

variable {b : Config.Build} {s t : State} {v : Bool} {e : FaultCode}

theorem widthOk_iff {n : Nat} : widthOk b n = true ↔ n ≤ 2 ^ b.regW - 1 := decide_eq_true_iff

/-! ## Narrow and Locate -/

/-- What Narrow can do (R133 to R136). -/
theorem narrow_ok {es : Estimate} {a : Symbol} (h : narrow b es a s = .ok t) :
    es.p a ≠ 0 ∧ narrowedLo b es a s ≤ 2 ^ b.regW - 1 ∧ narrowedHi b es a s ≤ 2 ^ b.regW - 1 ∧
      narrowedLo b es a s < narrowedHi b es a s ∧
      t = s.setInterval (narrowedLo b es a s) (narrowedHi b es a s) := by
  unfold narrow at h
  split at h
  · injection h
  · simp only at h
    split at h
    · rename_i hw
      obtain ⟨h₁, h₂⟩ := Bool.and_eq_true_iff.mp hw
      split at h
      · injection h
      · injection h with h
        have : narrowedLo b es a s ≤ narrowedHi b es a s := Nat.le_add_right _ _
        exact ⟨‹_›, widthOk_iff.mp h₁, widthOk_iff.mp h₂, by omega, h.symm⟩
    · injection h

theorem narrow_error {es : Estimate} {a : Symbol} (h : narrow b es a s = .error e) :
    e = .modelInconsistency ∨ e = .zeroInterval ∨ e = .intervalOverflow := by
  unfold narrow at h
  split at h
  · injection h with h; exact .inl h.symm
  · simp only at h
    split at h
    · split at h
      · injection h with h; exact .inr (.inl h.symm)
      · injection h
    · injection h with h; exact .inr (.inr h.symm)

theorem locate_ok {es : Estimate} {a : Symbol} (h : locate b es s = .ok a) :
    s.lo.toNat ≤ s.value.toNat ∧ a = BitVec.ofNat 8 (lastAtMost (scaledValue b s) (es.F.take Config.NSYM) 0 0) := by
  unfold locate at h
  split at h
  · injection h
  · injection h with h; exact ⟨by omega, h.symm⟩

theorem locate_error {es : Estimate} (h : locate b es s = .error e) : e = .noSymbol := by
  unfold locate at h
  split at h
  · injection h with h; exact h.symm
  · injection h

/-- The search keeps `best` or finds a later entry that is at most x. -/
theorem lastAtMost_spec (x : ℚ) (l : List ℚ) (i best : Nat) :
    lastAtMost x l i best = best ∨
      (i ≤ lastAtMost x l i best ∧ ∃ f, l[lastAtMost x l i best - i]? = some f ∧ f ≤ x) := by
  induction l generalizing i best with
  | nil => exact .inl rfl
  | cons f l ih =>
    simp only [lastAtMost]
    rcases ih (i + 1) (if f ≤ x then i else best) with h | ⟨h₁, g, h₂, h₃⟩
    · rw [h]
      split
      · exact .inr ⟨le_rfl, f, by simp, ‹_›⟩
      · exact .inl rfl
    · refine .inr ⟨by omega, g, ?_, h₃⟩
      have : lastAtMost x l (i + 1) (if f ≤ x then i else best) - i =
          (lastAtMost x l (i + 1) (if f ≤ x then i else best) - (i + 1)) + 1 := by omega
      rw [this, List.getElem?_cons_succ, h₂]

/-! ## Emit, Absorb, StraddleInc -/

/-- What Emit can do (R145). -/
theorem emit_ok (h : emit b v s = .ok t) :
    s.outLen.toNat ≠ b.obufBits ∧ t = (s.putObit s.outLen.toNat v).setOutLen (s.outLen.toNat + 1) := by
  unfold emit at h
  split at h
  · injection h
  · injection h with h; exact ⟨‹_›, h.symm⟩

theorem emit_error (h : emit b v s = .error e) : e = .sinkFull := by
  unfold emit at h
  split at h
  · injection h with h; exact h.symm
  · injection h

theorem emitMany_succ_ok {n : Nat} (h : emitMany b v (n + 1) s = .ok t) :
    ∃ s', emit b v s = .ok s' ∧ emitMany b v n s' = .ok t := by
  simp only [emitMany] at h
  split at h
  · injection h
  · exact ⟨_, ‹_›, h⟩

theorem emitMany_error {n : Nat} (h : emitMany b v n s = .error e) : e = .sinkFull := by
  induction n generalizing s with
  | zero => injection h
  | succ n ih =>
    simp only [emitMany] at h
    split at h
    · injection h with h; exact h ▸ emit_error ‹_›
    · exact ih h

theorem emitOwed_ok (h : emitOwed b v s = .ok t) :
    ∃ s', emit b v s = .ok s' ∧ emitMany b (!v) s.straddle.toNat s' = .ok t := by
  unfold emitOwed at h
  split at h
  · injection h
  · exact ⟨_, ‹_›, h⟩

theorem emitOwed_error (h : emitOwed b v s = .error e) : e = .sinkFull := by
  unfold emitOwed at h
  split at h
  · injection h with h; exact h ▸ emit_error ‹_›
  · exact emitMany_error h

theorem straddleInc_ok (h : straddleInc b s = .ok t) :
    s.straddle.toNat ≠ 2 ^ b.straddleW - 1 ∧ t = s.setStraddle (s.straddle.toNat + 1) := by
  unfold straddleInc at h
  split at h
  · injection h
  · injection h with h; exact ⟨‹_›, h.symm⟩

theorem straddleInc_error (h : straddleInc b s = .error e) : e = .straddleOverflow := by
  unfold straddleInc at h
  split at h
  · injection h with h; exact h.symm
  · injection h

/-- What Absorb can do (R147): the bit it returns is the stream's or a padding 0. -/
theorem absorb_ok (h : absorb s = .ok (v, t)) :
    s.cursor.toNat < s.runLen.toNat + Config.PREC ∧ t = s.setCursor (s.cursor.toNat + 1) ∧
      v = (if s.cursor.toNat < s.runLen.toNat then s.ibit s.cursor.toNat else false) := by
  unfold absorb at h
  simp only at h
  split at h
  · simp only [Except.ok.injEq, Prod.mk.injEq] at h
    exact ⟨by omega, h.2.symm, by rw [if_pos ‹_›]; exact h.1.symm⟩
  · split at h
    · simp only [Except.ok.injEq, Prod.mk.injEq] at h
      exact ⟨‹_›, h.2.symm, by rw [if_neg ‹_›]; exact h.1.symm⟩
    · injection h

theorem absorb_error (h : absorb s = .error e) :
    e = .sourceExhausted ∧ s.runLen.toNat + Config.PREC ≤ s.cursor.toNat := by
  unfold absorb at h
  simp only at h
  split at h
  · injection h
  · split at h
    · injection h
    · injection h with h; exact ⟨h.symm, by omega⟩

/-! ## What emitting changes -/

/-- t differs from s in the output stream, its length and the straddle counter only. -/
structure SameButOutput (s t : State) : Prop where
  eq : t = { s with obuf := t.obuf, outLen := t.outLen, straddle := t.straddle }

theorem SameButOutput.refl (s : State) : SameButOutput s s := ⟨rfl⟩

theorem SameButOutput.trans {s t u : State} (h : SameButOutput s t) (h' : SameButOutput t u) : SameButOutput s u :=
  ⟨by rw [h'.eq, h.eq]⟩

theorem SameButOutput.setStraddle {s t : State} (h : SameButOutput s t) (n : Nat) :
    SameButOutput s (t.setStraddle n) := ⟨by rw [h.eq]; rfl⟩

theorem emit_same (h : emit b v s = .ok t) : SameButOutput s t := by
  obtain ⟨-, rfl⟩ := emit_ok h; exact ⟨rfl⟩

theorem emitMany_same {n : Nat} (h : emitMany b v n s = .ok t) : SameButOutput s t := by
  induction n generalizing s with
  | zero => injection h with h; exact h ▸ .refl s
  | succ n ih =>
    obtain ⟨s', h₁, h₂⟩ := emitMany_succ_ok h
    exact (emit_same h₁).trans (ih h₂)

theorem emitOwed_same (h : emitOwed b v s = .ok t) : SameButOutput s t := by
  obtain ⟨s', h₁, h₂⟩ := emitOwed_ok h
  exact (emit_same h₁).trans (emitMany_same h₂)

theorem straddleInc_same (h : straddleInc b s = .ok t) : SameButOutput s t := by
  obtain ⟨-, rfl⟩ := straddleInc_ok h; exact ⟨rfl⟩

/-! ## Renormalization -/

/-- What the encoder's part of a case can do (R140 to R142). -/
theorem caseEmit_ok {c : RenormCase} (h : caseEmit b c s = .ok t) :
    (c = .low ∧ ∃ s', emitOwed b false s = .ok s' ∧ t = s'.setStraddle 0) ∨
    (c = .high ∧ ∃ s', emitOwed b true s = .ok s' ∧ t = s'.setStraddle 0) ∨
    (c = .mid ∧ straddleInc b s = .ok t) := by
  unfold caseEmit at h
  cases c <;> simp only at h
  · split at h
    · injection h
    · injection h with h; exact .inl ⟨rfl, _, ‹_›, h.symm⟩
  · split at h
    · injection h
    · injection h with h; exact .inr (.inl ⟨rfl, _, ‹_›, h.symm⟩)
  · exact .inr (.inr ⟨rfl, h⟩)

theorem caseEmit_error {c : RenormCase} (h : caseEmit b c s = .error e) : e = .sinkFull ∨ e = .straddleOverflow := by
  unfold caseEmit at h
  cases c <;> simp only at h
  · split at h
    · injection h with h; exact .inl (h ▸ emitOwed_error ‹_›)
    · injection h
  · split at h
    · injection h with h; exact .inl (h ▸ emitOwed_error ‹_›)
    · injection h
  · exact .inr (straddleInc_error h)

theorem caseEmit_same {c : RenormCase} (h : caseEmit b c s = .ok t) : SameButOutput s t := by
  rcases caseEmit_ok h with ⟨-, s', h₁, rfl⟩ | ⟨-, s', h₁, rfl⟩ | ⟨-, h₁⟩
  · exact (emitOwed_same h₁).setStraddle 0
  · exact (emitOwed_same h₁).setStraddle 0
  · exact straddleInc_same h₁

/-- What the encoder's stretch can do (R143). -/
theorem stretchEnc_ok {off : Nat} (h : stretchEnc b off s = .ok t) :
    2 * (s.lo.toNat - off) ≤ 2 ^ b.regW - 1 ∧ 2 * (s.hi.toNat - off) + 1 ≤ 2 ^ b.regW - 1 ∧
      t = s.setInterval (2 * (s.lo.toNat - off)) (2 * (s.hi.toNat - off) + 1) := by
  unfold stretchEnc at h
  simp only at h
  split at h
  · rename_i hw
    obtain ⟨h₁, h₂⟩ := Bool.and_eq_true_iff.mp hw
    injection h with h
    exact ⟨widthOk_iff.mp h₁, widthOk_iff.mp h₂, h.symm⟩
  · injection h

theorem stretchEnc_error {off : Nat} (h : stretchEnc b off s = .error e) : e = .intervalOverflow := by
  unfold stretchEnc at h
  simp only at h
  split at h
  · injection h
  · injection h with h; exact h.symm

theorem renormEncPass_ok {c : RenormCase} (h : renormEncPass b c s = .ok t) :
    ∃ s', caseEmit b c s = .ok s' ∧ stretchEnc b c.offset s' = .ok t := by
  unfold renormEncPass at h
  split at h
  · injection h
  · exact ⟨_, ‹_›, h⟩

theorem renormEncPass_error {c : RenormCase} (h : renormEncPass b c s = .error e) :
    e = .sinkFull ∨ e = .straddleOverflow ∨ e = .intervalOverflow := by
  unfold renormEncPass at h
  split at h
  · injection h with h
    rcases caseEmit_error ‹_› with h' | h' <;> simp [← h, h']
  · exact .inr (.inr (stretchEnc_error h))

/-- One round of RenormEnc's loop (R139). -/
theorem renormEncLoop_succ_ok {n : Nat} (h : renormEncLoop b (n + 1) s = .ok t) :
    (renormCase s.lo.toNat s.hi.toNat = none ∧ t = s) ∨
    ∃ c s', renormCase s.lo.toNat s.hi.toNat = some c ∧ renormEncPass b c s = .ok s' ∧
      renormEncLoop b n s' = .ok t := by
  simp only [renormEncLoop] at h
  split at h
  · injection h with h; exact .inl ⟨‹_›, h.symm⟩
  · split at h
    · injection h
    · exact .inr ⟨_, _, ‹_›, ‹_›, h⟩

theorem renormEncLoop_error {n : Nat} (h : renormEncLoop b n s = .error e) :
    e = .sinkFull ∨ e = .straddleOverflow ∨ e = .intervalOverflow := by
  induction n generalizing s with
  | zero => injection h with h; simp [← h]
  | succ n ih =>
    simp only [renormEncLoop] at h
    split at h
    · injection h
    · split at h
      · injection h with h
        exact h ▸ renormEncPass_error ‹_›
      · exact ih h

/-- What the decoder's stretch can do (R143, R146). -/
theorem stretchDec_ok {off : Nat} (h : stretchDec b off s = .ok t) :
    ∃ v s', absorb s = .ok (v, s') ∧ 2 * (s.lo.toNat - off) ≤ 2 ^ b.regW - 1 ∧
      2 * (s.hi.toNat - off) + 1 ≤ 2 ^ b.regW - 1 ∧ 2 * (s.value.toNat - off) + v.toNat ≤ 2 ^ b.regW - 1 ∧
      t = (s'.setInterval (2 * (s.lo.toNat - off)) (2 * (s.hi.toNat - off) + 1)).setValue
        (2 * (s.value.toNat - off) + v.toNat) := by
  unfold stretchDec at h
  split at h
  · injection h
  · simp only at h
    split at h
    · rename_i hw
      obtain ⟨h₁₂, h₃⟩ := Bool.and_eq_true_iff.mp hw
      obtain ⟨h₁, h₂⟩ := Bool.and_eq_true_iff.mp h₁₂
      injection h with h
      exact ⟨_, _, ‹_›, widthOk_iff.mp h₁, widthOk_iff.mp h₂, widthOk_iff.mp h₃, h.symm⟩
    · injection h

theorem stretchDec_error {off : Nat} (h : stretchDec b off s = .error e) :
    e = .sourceExhausted ∨ e = .intervalOverflow := by
  unfold stretchDec at h
  split at h
  · injection h with h; exact .inl (h ▸ (absorb_error ‹_›).1)
  · simp only at h
    split at h
    · injection h
    · injection h with h; exact .inr h.symm

/-- One round of RenormDec's loop (R146). -/
theorem renormDecLoop_succ_ok {n : Nat} (h : renormDecLoop b (n + 1) s = .ok t) :
    (renormCase s.lo.toNat s.hi.toNat = none ∧ t = s) ∨
    ∃ c s', renormCase s.lo.toNat s.hi.toNat = some c ∧ stretchDec b c.offset s = .ok s' ∧
      renormDecLoop b n s' = .ok t := by
  simp only [renormDecLoop] at h
  split at h
  · injection h with h; exact .inl ⟨‹_›, h.symm⟩
  · split at h
    · injection h
    · exact .inr ⟨_, _, ‹_›, ‹_›, h⟩

theorem renormDecLoop_error {n : Nat} (h : renormDecLoop b n s = .error e) :
    e = .sourceExhausted ∨ e = .intervalOverflow := by
  induction n generalizing s with
  | zero => injection h with h; simp [← h]
  | succ n ih =>
    simp only [renormDecLoop] at h
    split at h
    · injection h
    · split at h
      · injection h with h
        exact h ▸ stretchDec_error ‹_›
      · exact ih h

theorem renormEncPass_same {c : RenormCase} (h : renormEncPass b c s = .ok t) :
    ∃ s', SameButOutput s s' ∧ t = s'.setInterval (2 * (s.lo.toNat - c.offset)) (2 * (s.hi.toNat - c.offset) + 1) := by
  obtain ⟨s', h₁, h₂⟩ := renormEncPass_ok h
  have hs := caseEmit_same h₁
  obtain ⟨-, -, rfl⟩ := stretchEnc_ok h₂
  have hlo : s'.lo = s.lo := by rw [hs.eq]
  have hhi : s'.hi = s.hi := by rw [hs.eq]
  exact ⟨s', hs, by rw [hlo, hhi]⟩

/-- RenormEnc changes the interval and the output only. -/
theorem renormEncLoop_frame {n : Nat} (h : renormEncLoop b n s = .ok t) :
    t = { s with lo := t.lo, hi := t.hi, obuf := t.obuf, outLen := t.outLen, straddle := t.straddle } := by
  induction n generalizing s with
  | zero => injection h
  | succ n ih =>
    rcases renormEncLoop_succ_ok h with ⟨-, rfl⟩ | ⟨c, s', -, hp, hl⟩
    · rfl
    · obtain ⟨u, hu, rfl⟩ := renormEncPass_same hp
      rw [ih hl, hu.eq]; rfl

/-- RenormDec changes the interval, VALUE and CURSOR only. -/
theorem renormDecLoop_frame {n : Nat} (h : renormDecLoop b n s = .ok t) :
    t = { s with lo := t.lo, hi := t.hi, value := t.value, cursor := t.cursor } := by
  induction n generalizing s with
  | zero => injection h
  | succ n ih =>
    rcases renormDecLoop_succ_ok h with ⟨-, rfl⟩ | ⟨c, s', -, hp, hl⟩
    · rfl
    · obtain ⟨v, u, hu, -, -, -, rfl⟩ := stretchDec_ok hp
      obtain ⟨-, rfl, -⟩ := absorb_ok hu
      rw [ih hl]; rfl

/-! ## Flush -/

theorem flush_ok (h : flush b s = .ok t) :
    ∃ s', straddleInc b s = .ok s' ∧ emitOwed b (decide (Config.QUARTER ≤ s.lo.toNat)) s' = .ok t := by
  unfold flush at h
  split at h
  · injection h
  · exact ⟨_, ‹_›, h⟩

theorem flush_error (h : flush b s = .error e) : e = .straddleOverflow ∨ e = .sinkFull := by
  unfold flush at h
  split at h
  · injection h with h; exact .inl (h ▸ straddleInc_error ‹_›)
  · exact .inr (emitOwed_error h)

theorem flush_same (h : flush b s = .ok t) : SameButOutput s t := by
  obtain ⟨s', h₁, h₂⟩ := flush_ok h
  exact (straddleInc_same h₁).trans (emitOwed_same h₂)

/-! ## The renormalizers do not read the context model -/

section Model
variable (b : Config.Build) (T : Table) (H : Context)

theorem emit_setModel (v : Bool) (s : State) :
    emit b v (s.setModel T H) = (emit b v s).map (·.setModel T H) := by
  by_cases h : s.outLen.toNat = b.obufBits
  · rw [emit, emit, if_pos h, if_pos (show (s.setModel T H).outLen.toNat = b.obufBits from h)]; rfl
  · rw [emit, emit, if_neg h, if_neg (show ¬ (s.setModel T H).outLen.toNat = b.obufBits from h)]; rfl

theorem emitMany_setModel (v : Bool) (n : Nat) (s : State) :
    emitMany b v n (s.setModel T H) = (emitMany b v n s).map (·.setModel T H) := by
  induction n generalizing s with
  | zero => rfl
  | succ n ih =>
    simp only [emitMany, emit_setModel]
    cases emit b v s with
    | error e => rfl
    | ok s' => exact ih s'

theorem emitOwed_setModel (v : Bool) (s : State) :
    emitOwed b v (s.setModel T H) = (emitOwed b v s).map (·.setModel T H) := by
  simp only [emitOwed, emit_setModel, State.setModel_straddle]
  cases emit b v s with
  | error e => rfl
  | ok s' => exact emitMany_setModel b T H _ _ s'

theorem caseEmit_setModel (c : RenormCase) (s : State) :
    caseEmit b c (s.setModel T H) = (caseEmit b c s).map (·.setModel T H) := by
  cases c with
  | mid =>
    show straddleInc b (s.setModel T H) = (straddleInc b s).map (·.setModel T H)
    by_cases h : s.straddle.toNat = 2 ^ b.straddleW - 1
    · rw [straddleInc, straddleInc, if_pos h,
        if_pos (show (s.setModel T H).straddle.toNat = 2 ^ b.straddleW - 1 from h)]; rfl
    · rw [straddleInc, straddleInc, if_neg h,
        if_neg (show ¬ (s.setModel T H).straddle.toNat = 2 ^ b.straddleW - 1 from h)]; rfl
  | low => simp only [caseEmit, emitOwed_setModel]; cases emitOwed b false s <;> rfl
  | high => simp only [caseEmit, emitOwed_setModel]; cases emitOwed b true s <;> rfl

theorem stretchEnc_setModel (off : Nat) (s : State) :
    stretchEnc b off (s.setModel T H) = (stretchEnc b off s).map (·.setModel T H) := by
  change (if (widthOk b (2 * (s.lo.toNat - off)) && widthOk b (2 * (s.hi.toNat - off) + 1)) = true then _ else _) =
    Except.map _ (if (widthOk b (2 * (s.lo.toNat - off)) && widthOk b (2 * (s.hi.toNat - off) + 1)) = true then _ else _)
  cases widthOk b (2 * (s.lo.toNat - off)) && widthOk b (2 * (s.hi.toNat - off) + 1) <;> rfl

theorem absorb_setModel (s : State) :
    absorb (s.setModel T H) = (absorb s).map (fun p => (p.1, p.2.setModel T H)) := by
  change (if s.cursor.toNat < s.runLen.toNat then _ else if s.cursor.toNat < s.runLen.toNat + Config.PREC then _ else _) =
    Except.map _ (if s.cursor.toNat < s.runLen.toNat then _ else
      if s.cursor.toNat < s.runLen.toNat + Config.PREC then _ else _)
  split
  · rfl
  · split <;> rfl

theorem stretchDec_setModel (off : Nat) (s : State) :
    stretchDec b off (s.setModel T H) = (stretchDec b off s).map (·.setModel T H) := by
  unfold stretchDec
  rw [absorb_setModel]
  cases absorb s with
  | error e => rfl
  | ok p =>
    change (if (widthOk b (2 * (s.lo.toNat - off)) && widthOk b (2 * (s.hi.toNat - off) + 1) &&
        widthOk b (2 * (s.value.toNat - off) + p.1.toNat)) = true then _ else _) =
      Except.map _ (if (widthOk b (2 * (s.lo.toNat - off)) && widthOk b (2 * (s.hi.toNat - off) + 1) &&
        widthOk b (2 * (s.value.toNat - off) + p.1.toNat)) = true then _ else _)
    cases widthOk b (2 * (s.lo.toNat - off)) && widthOk b (2 * (s.hi.toNat - off) + 1) &&
      widthOk b (2 * (s.value.toNat - off) + p.1.toNat) <;> rfl

/-- RenormEnc neither reads nor writes T and H. -/
theorem renormEncLoop_setModel (n : Nat) (s : State) :
    renormEncLoop b n (s.setModel T H) = (renormEncLoop b n s).map (·.setModel T H) := by
  induction n generalizing s with
  | zero => rfl
  | succ n ih =>
    simp only [renormEncLoop, State.setModel_lo, State.setModel_hi]
    cases renormCase s.lo.toNat s.hi.toNat with
    | none => rfl
    | some c =>
      simp only [renormEncPass, caseEmit_setModel]
      cases caseEmit b c s with
      | error e => rfl
      | ok u =>
        simp only [Except.map, stretchEnc_setModel]
        cases stretchEnc b c.offset u with
        | error e => rfl
        | ok s' => exact ih s'

/-- RenormDec neither reads nor writes T and H. -/
theorem renormDecLoop_setModel (n : Nat) (s : State) :
    renormDecLoop b n (s.setModel T H) = (renormDecLoop b n s).map (·.setModel T H) := by
  induction n generalizing s with
  | zero => rfl
  | succ n ih =>
    simp only [renormDecLoop, State.setModel_lo, State.setModel_hi]
    cases renormCase s.lo.toNat s.hi.toNat with
    | none => rfl
    | some c =>
      simp only [stretchDec_setModel]
      cases stretchDec b c.offset s with
      | error e => rfl
      | ok s' => exact ih s'

end Model

end Sys2Proof.Machine
end

