-- ==== Sys2Proof/Laws/PerInstr.lean ====
section
/-! SUPPORT. A family of statements made per command: its fields are those of a legal encoding, and its word has them (R70
to R73). -/

namespace Sys2Proof.Laws.Fields

/-- The command's fields are those of a legal encoding, and its word has exactly them (R70, R72). -/
abbrev Statement (i : Instr) : Prop := i.wf = true ∧ Cmd32.ofWord (encode i) = i.fields

theorem nop : Statement .nop := by decide

theorem initEnc : Statement .initEnc := by decide

theorem initDec : Statement .initDec := by decide

theorem encSym (s : Symbol) : Statement (.encSym s) := by revert s; decide +kernel

theorem decSym : Statement .decSym := by decide

theorem finish : Statement .finish := by decide

end Sys2Proof.Laws.Fields
end

