-- ==== Sys2Proof/Laws/Step.lean ====
section
/-! SUPPORT. What a command and a step can do, once each: the commands' rules, the issue of a command, the core's step, the
host's moves. -/

namespace Sys2Proof.Machine

variable {b : Config.Build} {s t : State} {e : FaultCode}

/-! ## Issue -/

@[simp] theorem issue_ignored (body : State → Except FaultCode State) : issue .ignored s body = .next s := rfl

@[simp] theorem issue_illegal (body : State → Except FaultCode State) :
    issue .illegal s body = .next (s.raise .illegalCommand) := rfl

theorem issue_ok_of_ok {body : State → Except FaultCode State} (h : body s = .ok t) : issue .ok s body = .next t := by
  simp [issue, h]

theorem issue_ok_of_error {body : State → Except FaultCode State} (h : body s = .error e) :
    issue .ok s body = .next (s.raise e) := by
  simp [issue, h]

/-- What an issued command can do (R171, R216). -/
theorem issue_next {l : Legality} {body : State → Except FaultCode State} (h : issue l s body = .next t) :
    (l = .ignored ∧ t = s) ∨ (l = .illegal ∧ t = s.raise .illegalCommand) ∨
    (l = .ok ∧ body s = .ok t) ∨ (l = .ok ∧ ∃ e, body s = .error e ∧ t = s.raise e) := by
  unfold issue at h
  cases l <;> simp only at h
  · split at h
    · injection h with h; exact .inr (.inr (.inl ⟨rfl, h ▸ ‹_›⟩))
    · injection h with h; exact .inr (.inr (.inr ⟨rfl, _, ‹_›, h.symm⟩))
  · injection h with h; exact .inr (.inl ⟨rfl, h.symm⟩)
  · injection h with h; exact .inl ⟨rfl, h.symm⟩

/-- A command always ends in a next state (R215). -/
theorem issue_isNext (l : Legality) (s : State) (body : State → Except FaultCode State) :
    ∃ t, issue l s body = .next t := by
  unfold issue
  cases l <;> simp only
  · split <;> exact ⟨_, rfl⟩
  · exact ⟨_, rfl⟩
  · exact ⟨_, rfl⟩

/-! ## The rules of the commands -/

theorem initEncRule_ok (h : initEncRule s = .ok t) : s.configOk = true ∧ t = s.startRun .encode 0 0 0 := by
  unfold initEncRule at h
  split at h
  · injection h with h; exact ⟨‹_›, h.symm⟩
  · injection h

theorem initEncRule_error (h : initEncRule s = .error e) : e = .badConfig := by
  unfold initEncRule at h
  split at h
  · injection h
  · injection h with h; exact h.symm

theorem initDecRule_ok (h : initDecRule b s = .ok t) :
    s.inLen.toNat ≤ b.ibufBits ∧ s.configOk = true ∧
      t = s.startRun .decode (loadedValue s s.inLen.toNat) Config.PREC s.inLen := by
  unfold initDecRule at h
  split at h
  · injection h
  · split at h
    · injection h with h; exact ⟨by omega, ‹_›, h.symm⟩
    · injection h

theorem initDecRule_error (h : initDecRule b s = .error e) : e = .badLength ∨ e = .badConfig := by
  unfold initDecRule at h
  split at h
  · injection h with h; exact .inl h.symm
  · split at h
    · injection h
    · injection h with h; exact .inr h.symm

theorem finishRule_ok (h : finishRule b s = .ok t) :
    (s.mode = .decode ∧ t = s.terminate) ∨ (s.mode = .encode ∧ ∃ s', flush b s = .ok s' ∧ t = s'.terminate) := by
  unfold finishRule at h
  split at h
  · injection h with h; exact .inl ⟨‹_›, h.symm⟩
  · split at h
    · injection h
    · injection h with h; exact .inr ⟨‹_›, _, ‹_›, h.symm⟩

theorem finishRule_error (h : finishRule b s = .error e) : e = .straddleOverflow ∨ e = .sinkFull := by
  unfold finishRule at h
  split at h
  · injection h
  · split at h
    · injection h with h; exact h ▸ flush_error ‹_›
    · injection h

theorem codeSymbol_ok {es : Estimate} {a : Symbol} (h : codeSymbol b es a s = .ok t) :
    ∃ s', narrow b es a s = .ok s' ∧ observe b a s' = .ok t := by
  unfold codeSymbol at h
  split at h
  · injection h
  · exact ⟨_, ‹_›, h⟩

theorem codeSymbol_error {es : Estimate} {a : Symbol} (h : codeSymbol b es a s = .error e) :
    e ∈ [FaultCode.modelInconsistency, .zeroInterval, .intervalOverflow, .countOverflow, .tableFull] := by
  unfold codeSymbol at h
  split at h
  · injection h with h
    rcases narrow_error ‹_› with h' | h' | h' <;> simp [← h, h']
  · rcases observe_error h with h' | h' <;> simp [h']

/-- What ENC_SYM's rule can do (R175). -/
theorem encSymRule_ok {a : Symbol} (h : encSymRule b a s = .ok t) :
    ∃ s₁ s₂, codeSymbol b (estimate b s.table s.hist) a s = .ok s₁ ∧ renormEnc b s₁ = .ok s₂ ∧ t = s₂.countSymbol := by
  unfold encSymRule at h
  split at h
  · injection h
  · split at h
    · injection h
    · injection h with h; exact ⟨_, _, ‹_›, ‹_›, h.symm⟩

theorem encSymRule_error {a : Symbol} (h : encSymRule b a s = .error e) : e ≠ .noFault := by
  unfold encSymRule at h
  split at h
  · injection h with h
    have := codeSymbol_error ‹_›
    rintro rfl; subst h; simp at this
  · split at h
    · injection h with h
      rcases renormEncLoop_error ‹_› with h' | h' | h' <;> simp [← h, h']
    · injection h

/-- What DEC_SYM's rule can do (R176). -/
theorem decSymRule_ok (h : decSymRule b s = .ok t) :
    ∃ a s₁ s₂, locate b (estimate b s.table s.hist) s = .ok a ∧
      codeSymbol b (estimate b s.table s.hist) a s = .ok s₁ ∧ renormDec b s₁ = .ok s₂ ∧
      t = (s₂.setSym a).countSymbol := by
  unfold decSymRule at h
  split at h
  · injection h
  · split at h
    · injection h
    · split at h
      · injection h
      · injection h with h; exact ⟨_, _, _, ‹_›, ‹_›, ‹_›, h.symm⟩

theorem decSymRule_error (h : decSymRule b s = .error e) : e ≠ .noFault := by
  unfold decSymRule at h
  split at h
  · injection h with h; simp [← h, locate_error ‹_›]
  · split at h
    · injection h with h
      have := codeSymbol_error ‹_›
      rintro rfl; subst h; simp at this
    · split at h
      · injection h with h
        rcases renormDecLoop_error ‹_› with h' | h' <;> simp [← h, h']
      · injection h

/-! ## exec -/

/-- The rule a command runs when R171 allows it. -/
def ruleOf : Instr → State → Except FaultCode State
  | .nop => fun s => .ok s
  | .initEnc => initEncRule
  | .initDec => initDecRule Config.build
  | .encSym a => encSymRule Config.build a
  | .decSym => decSymRule Config.build
  | .finish => finishRule Config.build

/-- A command's meaning is its rule, issued under R171's table. -/
theorem exec_eq (i : Instr) (s : State) : exec i s = issue (legality i s.runState s.mode) s (ruleOf i) := by
  cases i <;> rfl

theorem exec_isNext (i : Instr) (s : State) : ∃ t, exec i s = .next t := by
  rw [exec_eq]; exact issue_isNext _ _ _

theorem ruleOf_error {i : Instr} (h : ruleOf i s = .error e) : e ≠ .noFault := by
  cases i
  · injection h
  · simp [initEncRule_error h]
  · rcases initDecRule_error h with h | h <;> simp [h]
  · exact encSymRule_error h
  · exact decSymRule_error h
  · rcases finishRule_error h with h | h <;> simp [h]

/-- What executing a word can do (R171): nothing, IllegalCommand, a command's rule, or a fault of it. -/
theorem executeWord_next {w : Word} (h : executeWord w s = .next t) :
    t = s ∨ (s.runState ≠ .faulted ∧ t = s.raise .illegalCommand) ∨
    ∃ i, decodeWord w = .ok i ∧ legality i s.runState s.mode = .ok ∧
      (ruleOf i s = .ok t ∨ ∃ e, ruleOf i s = .error e ∧ t = s.raise e) := by
  unfold executeWord at h
  split at h
  · rename_i i hi
    rw [exec_eq] at h
    rcases issue_next h with ⟨-, rfl⟩ | ⟨hl, rfl⟩ | ⟨hl, hr⟩ | ⟨hl, hr⟩
    · exact .inl rfl
    · refine .inr (.inl ⟨fun hf => ?_, rfl⟩)
      rw [hf] at hl; cases i <;> simp [legality] at hl
    · exact .inr (.inr ⟨i, hi, hl, .inl hr⟩)
    · exact .inr (.inr ⟨i, hi, hl, .inr hr⟩)
  · unfold execIllegalWord at h
    rcases issue_next h with ⟨-, rfl⟩ | ⟨hl, rfl⟩ | ⟨hl, hr⟩ | ⟨-, e, he, -⟩
    · exact .inl rfl
    · refine .inr (.inl ⟨fun hf => ?_, rfl⟩)
      rw [hf] at hl; simp [illegalWordLegality] at hl
    · injection hr with hr; exact .inl hr.symm
    · injection he

theorem executeWord_isNext (w : Word) (s : State) : ∃ t, executeWord w s = .next t := by
  unfold executeWord
  split
  · exact exec_isNext _ _
  · exact issue_isNext _ _ _

/-- The core's turn (R170): nothing when BUSY = 0, else the latched word is executed and PEND emptied. -/
theorem coreStep_next (h : coreStep s = .next t) :
    (s.pend = none ∧ t = s) ∨ ∃ w u, s.pend = some w ∧ executeWord w s = .next u ∧ t = u.retire := by
  unfold coreStep at h
  split at h
  · injection h with h; exact .inl ⟨‹_›, h.symm⟩
  · rename_i w hw
    obtain ⟨u, hu⟩ := executeWord_isNext w s
    rw [hu] at h
    injection h with h
    exact .inr ⟨w, u, hw, hu, h.symm⟩

/-! ## step -/

/-- What a step can do: the core's turn, or a host move (R20). -/
theorem step_next (h : step s = .next t) :
    (∃ s', (s' = s ∧ s.agenda = [] ∨ ∃ l, s.agenda = .core :: l ∧ s' = s.setAgenda l) ∧ coreStep s' = .next t) ∨
    ∃ m l, s.agenda = .host m :: l ∧ t = hostMove m (s.setAgenda l) := by
  unfold step at h
  split at h
  · exact .inl ⟨s, .inl ⟨rfl, ‹_›⟩, h⟩
  · exact .inl ⟨_, .inr ⟨_, ‹_›, rfl⟩, h⟩
  · injection h with h; exact .inr ⟨_, _, ‹_›, h.symm⟩

/-- Every step ends in a next state (R215). -/
theorem step_isNext (s : State) : ∃ t, step s = .next t := by
  have core (s : State) : ∃ t, coreStep s = .next t := by
    unfold coreStep
    split
    · exact ⟨_, rfl⟩
    · obtain ⟨u, hu⟩ := executeWord_isNext ‹_› s
      exact ⟨u.retire, by rw [hu]; rfl⟩
  unfold step
  split
  · exact core _
  · exact core _
  · exact ⟨_, rfl⟩

/-! ## Host moves -/

/-- What a host write can do (R218): Overrun, BusError, or one of the effects of R179 and R170. -/
theorem hostWrite_cases (a : Addr) (v : Word) (s : State) :
    (s.busy = true ∧ hostWrite a v s = s.raiseHost .overrun) ∨
    (s.busy = false ∧ (misaligned a = true ∨ s.writeTarget v (targetOf a) = none) ∧
      hostWrite a v s = s.raiseHost .busError) ∨
    (s.busy = false ∧ misaligned a = false ∧ s.writeTarget v (targetOf a) = some (hostWrite a v s)) := by
  unfold hostWrite
  cases hb : s.busy
  · cases hm : misaligned a
    · cases hw : s.writeTarget v (targetOf a) <;> simp
    · simp
  · simp

/-- What a host read can do (R58, R60, R214): deliver a word, deliver a free word, or BusError. -/
theorem hostRead_cases (a : Addr) (s : State) :
    (∃ w, hostRead a s = s.deliver w) ∨ (s.busy = true ∧ hostRead a s = s.deliverFree) ∨
    (s.busy = false ∧ hostRead a s = (s.raiseHost .busError).deliver 0) := by
  unfold hostRead
  cases hb : s.busy
  · cases hm : misaligned a
    · cases hw : s.readTarget (targetOf a) <;> simp
    · simp
  · by_cases ha : a = statusAddr <;> simp [ha]

end Sys2Proof.Machine
end

