-- ==== Sys2Proof/Tests/Slice0.lean ====
section
/-! SUPPORT. Tests: the well-formedness checks refuse ill-formed fields, words of R71 decode, and single steps against the
vectors of 95_test_vectors.md; and for each obligation with hypotheses, a witness that meets them. -/

namespace Sys2Proof.Tests

open Sys2Proof.Machine

/-! ## WellFormed: an ill-formed term for each check -/

theorem test_wf_refuses_reserved_op : Cmd32.wf { op := 6, rsv := 0, sym8 := 0 } = false := by decide
theorem test_wf_refuses_reserved_bits : Cmd32.wf { op := 1, rsv := 1, sym8 := 0 } = false := by decide
theorem test_wf_refuses_stray_operand : Cmd32.wf { op := 0, rsv := 0, sym8 := 1 } = false := by decide
theorem test_wf_accepts_enc_sym : Cmd32.wf { op := 3, rsv := 0, sym8 := 255 } = true := by decide

/-! ## Decode: words written out from R70 and R71, as OP | RSV | SYM8 -/

theorem test_decode_nop : decodeWord 0b0000_00000000000000000000_00000000 = .ok .nop := by decide
theorem test_decode_initEnc : decodeWord 0b0001_00000000000000000000_00000000 = .ok .initEnc := by decide
theorem test_decode_initDec : decodeWord 0b0010_00000000000000000000_00000000 = .ok .initDec := by decide
theorem test_decode_encSym : decodeWord 0b0011_00000000000000000000_01000001 = .ok (.encSym 65) := by decide
theorem test_decode_decSym : decodeWord 0b0100_00000000000000000000_00000000 = .ok .decSym := by decide
theorem test_decode_finish : decodeWord 0b0101_00000000000000000000_00000000 = .ok .finish := by decide
theorem test_decode_refuses :
    decodeWord 0xF0000000 = .error .reservedOp ∧ decodeWord 0x30000141 = .error .reservedBits ∧
      decodeWord 0x50000001 = .error .strayOperand := by decide
theorem test_decodeTableWord : decodeTableWord 32 0x30000042 = some (.encSym 66) := by decide

/-! ## Small states -/

/-- The state a command ends in. -/
def after (i : Instr) (s : State) : State :=
  match exec i s with
  | .next t => t
  | .fault _ | .refused _ => s

theorem exec_after (i : Instr) (s : State) : exec i s = .next (after i s) := by
  obtain ⟨t, ht⟩ := exec_isNext i s
  simp [after, ht]

/-- The state a step ends in. -/
def stepped (s : State) : State :=
  match step s with
  | .next t => t
  | .fault _ | .refused _ => s

theorem step_stepped (s : State) : step s = .next (stepped s) := by
  obtain ⟨t, ht⟩ := step_isNext s
  simp [stepped, ht]

theorem completes_after {i : Instr} {s : State} (h : (after i s).runState ≠ .faulted) : Completes i s (after i s) :=
  ⟨exec_after i s, h⟩

/-- The value of a result. -/
def okOf {α : Type} : Except FaultCode α → Option α
  | .ok a => some a
  | .error _ => none

/-- This hardware with T unbounded, as the vectors take it. -/
def unbounded : Config.Build := { Config.build with ctxCap := none }

/-- Right after INIT_ENC. -/
def encStart : State := State.reset.startRun .encode 0 0 0

/-- Right after INIT_DEC on the 18-bit stream of "AB" (V-C5). -/
def decStart : State := after .initDec { State.reset with inLen := 18, ibuf := [(0x10000, 0x41), (0x10001, 0xC0),
  (0x10002, 0x80), (0x10003, 0)] }

/-- An encode run after "A" (V-M2, V-C2). -/
def encA : State :=
  { encStart with table := [([], ⟨2, [(65, 2)]⟩)], hist := [65], straddle := 1, outLen := 6, hi := 2147483775 }

/-- T after "AAAA" (V-M5). -/
def tableA4 : Table := [([], ⟨3, [(65, 3)]⟩), ([65], ⟨2, [(65, 2)]⟩), ([65, 65], ⟨2, [(65, 2)]⟩)]

/-- An encode run after "AAAA": every context of H is seen. -/
def encA4 : State :=
  { encStart with table := tableA4, hist := [65, 65], symCount := 4, lo := 1824659420, hi := 3256315273, outLen := 9 }

/-- A decode run after "AAAA", in the padding, with VALUE in the interval of 'A'. -/
def decA4 : State :=
  { encA4 with mode := .decode, outLen := 0, value := 2000000000, cursor := 41, runLen := 41 }

/-- An aborted run. -/
def aborted : State := State.reset.raise .badConfig

/-! ## Single steps, the expected values from 95_test_vectors.md -/

/-- V-C1. -/
theorem test_initEnc :
    let t := after .initEnc State.reset
    t.status = 0x00000001 ∧ t.lo = 0 ∧ t.hi = 4294967295 := by decide

/-- V-N2. -/
theorem test_initEnc_bad_config : (after .initEnc { State.reset with maxord := 1 }).status = 0x00000B03 := by decide

/-- V-C5. -/
theorem test_initDec :
    decStart.status = 0x00000015 ∧ decStart.value = 1103134720 ∧ decStart.cursor = 32 ∧ decStart.hi = 4294967295 := by
  decide

/-- V-N3: BadLength wins over BadConfig. -/
theorem test_initDec_bad_length :
    (after .initDec { State.reset with inLen := 524289, maxord := 1 }).status = 0x00000C03 := by decide

/-- V-N13: NOP in FAULTED keeps STATUS. -/
theorem test_nop_faulted : (after .nop aborted).status = 0x00000B03 := by decide

/-- V-C2, with T unbounded. -/
theorem test_encSym_first :
    (okOf (encSymRule unbounded 65 encStart)).map
      (fun t => (t.status, t.outLen, t.straddle, t.lo, t.hi, t.symCount)) = some (1, 6, 1, 0, 2147483775, 1) := by
  decide +kernel

/-- V-N4: with REG_W = 32, HI = 2^32 is an IntervalOverflow. -/
theorem test_encSym_interval_overflow :
    encSymRule { unbounded with regW := 32 } 255 encStart = .error .intervalOverflow := by decide +kernel

/-- V-C6, with T unbounded. -/
theorem test_decSym_first :
    (okOf (decSymRule unbounded decStart)).map
      (fun t => (t.status, t.sym, t.symCount, t.cursor, t.lo, t.hi, t.value)) =
        some (0x00000035, 65, 1, 39, 0, 2147483775, 1614807040) := by decide +kernel

/-- V-N1: DEC_SYM in an encode run. -/
theorem test_decSym_illegal : (after .decSym encStart).status = 0x00000A03 := by decide

/-- V-S1: FINISH of an empty run emits 01. -/
theorem test_finish_empty :
    let t := after .finish { encStart with obuf := [(0x20000, 0)] }
    t.status = 0x00000002 ∧ t.outLen = 2 ∧ t.obit 0 = false ∧ t.obit 1 = true ∧ t.straddle = 1 := by decide

/-- V-N7: with STRADDLE_W = 1, FINISH after "A" is a StraddleOverflow. -/
theorem test_finish_straddle_overflow :
    finishRule { unbounded with straddleW := 1 } { encStart with straddle := 1 } = .error .straddleOverflow := by decide

/-- V-C3: 'B' after "A", with T unbounded. -/
theorem test_model_second_symbol :
    (okOf (encSymRule unbounded 66 encA)).map (fun t => (t.lo, t.hi, t.straddle, t.outLen, t.hist)) =
      some (1796637184, 3233907711, 0, 16, [65, 66]) := by decide +kernel

/-- V-M7: exclusion, history "ABA". -/
theorem test_model_exclusion :
    let t : Table := [([], ⟨5, [(65, 3), (66, 2)]⟩), ([65], ⟨1, [(66, 1)]⟩), ([66], ⟨1, [(65, 1)]⟩)]
    estimateOne Config.build t [66, 65] 65 = 3 / 8 ∧ estimateOne Config.build t [66, 65] 66 = 1 / 2 ∧
      estimateOne Config.build t [66, 65] 67 = 1 / 2032 := by decide +kernel

/-- V-M9: Observe of 'C' after "AB". -/
theorem test_model_observe :
    okOf (observeFrom unbounded [65, 66] 67 3 [([], ⟨4, [(65, 2), (66, 2)]⟩), ([65], ⟨1, [(66, 1)]⟩)]) =
      some [([], ⟨6, [(65, 2), (66, 2), (67, 2)]⟩), ([65], ⟨1, [(66, 1)]⟩), ([66], ⟨1, [(67, 1)]⟩),
        ([65, 66], ⟨1, [(67, 1)]⟩)] := by decide +kernel

/-- V-C8. -/
theorem test_host_registers :
    (hostRead 0x008 (hostWrite 0x008 0xFFFFFFFF State.reset)).readData = some 0x00000003 ∧
      (hostRead 0x00C (hostWrite 0x00C 0xFFFFFFFF State.reset)).readData = some 0x000FFFFF ∧
      (hostRead 0x10000 (hostWrite 0x10000 0x41C08000 State.reset)).readData = some 0x41C08000 := by decide

/-- V-N11 and V-N12. -/
theorem test_host_faults :
    (hostWrite 0x008 3 (hostWrite 0x000 0x10000000 State.reset)).status = 0x00000D03 ∧
      (hostRead 0x006 State.reset).status = 0x00000E03 ∧ (hostWrite 0x20000 0 State.reset).status = 0x00000E03 ∧
      (hostRead 0x30000 State.reset).readData = some 0 := by decide

/-- A latched command runs on the core's turn. -/
theorem test_step_runs_command : (stepped (State.reset.withFetchWord 32 0x10000000)).status = 0x00000001 := by decide

/-! ## Witnesses: for each obligation with hypotheses, a state and operands that meet them -/

/-- DecodeFollowsOpcodeMap. -/
theorem witness_decode_rows :
    ∃ r ∈ opcodeMap, r.hits 0x30000041 = true := ⟨⟨0x30000000, 0xFFFFFF00, .encSym 0⟩, by decide, by decide⟩

/-- IllegalWordsRaiseOrAreIgnored: each clause of R73, in and outside FAULTED. -/
theorem witness_illegal_words :
    6 ≤ ((0x60000000 : Word).extractLsb' 28 4).toNat ∧ (0x30000100 : Word).extractLsb' 8 20 ≠ 0 ∧
      ((0x20000001 : Word).extractLsb' 28 4 ≠ 3 ∧ (0x20000001 : Word).extractLsb' 0 8 ≠ 0) ∧
      State.reset.runState ≠ .faulted ∧ aborted.runState = .faulted := by decide

/-- StepRunsDecodedCommand: a command, and a word that matches no row, in and outside FAULTED. -/
theorem witness_step_runs :
    (encStart.latch 0x50000000).pend = some 0x50000000 ∧ decodeWord 0x50000000 = .ok .finish ∧
      exec .finish (encStart.latch 0x50000000) = .next (after .finish (encStart.latch 0x50000000)) ∧
      encStart.agenda = [] ∧ (aborted.latch 0x60000000).pend = some 0x60000000 ∧
      decodeWord 0x60000000 = .error .reservedOp ∧ (aborted.latch 0x60000000).runState = .faulted ∧
      (encStart.latch 0x60000000).runState ≠ .faulted :=
  ⟨rfl, by decide, exec_after _ _, rfl, rfl, by decide, rfl, by decide⟩

/-- StepPerformsHostMoves, IbufWriteSetsItsStreamBits, RegisterWritesTakeEffect, RegisterReadsDeliverContents and
BadAccessRaisesBusError: BUSY = 0. -/
theorem witness_not_busy : State.reset.busy = false ∧ State.reset.agenda = [] ∧ aborted.busy = false := by decide

/-- IbufWriteSetsItsStreamBits and RegisterReadsDeliverContents: the ends of the windows. -/
theorem witness_windows :
    (0x10000 : Addr).toNat % 4 = 0 ∧ 0x10000 ≤ (0x10000 : Addr).toNat ∧ (0x1FFFC : Addr).toNat % 4 = 0 ∧
      (0x1FFFC : Addr).toNat < 0x20000 ∧ (0x20000 : Addr).toNat % 4 = 0 ∧ 0x20000 ≤ (0x20000 : Addr).toNat ∧
      (0x2FFFC : Addr).toNat % 4 = 0 ∧ (0x2FFFC : Addr).toNat < 0x30000 := by decide

/-- BadAccessRaisesBusError: the ends of the reserved and the read-only addresses, and a misaligned one. -/
theorem witness_bad_addresses :
    0x40 ≤ (0x40 : Addr).toNat ∧ (0xFFFF : Addr).toNat < 0x10000 ∧ 0x30000 ≤ (0x30000 : Addr).toNat ∧
      0x30000 ≤ (0x3FFFF : Addr).toNat ∧ ((0x4 : Addr).toNat < 0x40 ∧ (0x4 : Addr).toNat ≠ 0) ∧
      ((0x3C : Addr).toNat < 0x40 ∧ (0x3C : Addr).toNat ≠ 0xC) ∧ 0x20000 ≤ (0x20000 : Addr).toNat ∧
      (0x2FFFC : Addr).toNat < 0x30000 ∧ (0x6 : Addr).toNat % 4 ≠ 0 := by decide

/-- BusyAccessOverrunsOrReadsFree. -/
theorem witness_busy : (State.reset.latch 0x10000000).busy = true ∧ (0x008 : Addr) ≠ 0x004 := by decide

/-- ResetEventRestoresResetState. -/
theorem witness_reset_event : (encA4.setAgenda [.host .reset]).agenda = .host .reset :: [] := rfl

/-- A table after "AAAA" is sound: the hypothesis of the statements about estimation and Locate. -/
theorem witness_sound_table : tableA4.Sound Config.build 2 where
  sorted := by decide
  short := by decide
  records := by
    intro e he
    simp only [tableA4, List.mem_cons, List.not_mem_nil, or_false] at he
    rcases he with rfl | rfl | rfl <;>
      exact ⟨by decide, by decide, by decide +kernel, by decide, by decide⟩

/-- StepKeepsInvariant and SettledRangeIsLarge: the state after INIT_ENC. -/
theorem witness_invariant : encStart.Inv ∧ encStart.running ∧ step encStart = .next (stepped encStart) := by
  refine ⟨⟨Memory.sound_nil _, Memory.sound_nil _, by decide, by decide, fun _ => ?_⟩, .inl rfl, step_stepped _⟩
  refine ⟨by decide, Table.Sound.nil _ _, ?_, ?_, by decide, by decide, by decide, by decide, by decide, by decide,
    by decide, ?_, ?_⟩
  · intro e he; exact absurd he List.not_mem_nil
  · intro n _; exact Nat.zero_le n
  · exact fun _ => ⟨by decide, by decide, by decide⟩
  · intro _ h; exact absurd h (by decide)

/-- StepKeepsInvariant and SettledRangeIsLarge: the state after INIT_DEC, whose VALUE is in the interval. -/
theorem witness_invariant_decode : decStart.Inv ∧ decStart.running := by
  refine ⟨⟨⟨by decide, by decide⟩, Memory.sound_nil _, by decide, by decide, fun _ => ?_⟩, .inl rfl⟩
  refine ⟨by decide, Table.Sound.nil _ _, ?_, ?_, by decide, by decide, by decide, by decide, by decide, by decide,
    by decide, ?_, ?_⟩
  · intro e he; exact absurd he List.not_mem_nil
  · intro n _; exact Nat.zero_le n
  · exact fun _ => ⟨by decide, by decide, by decide⟩
  · exact fun _ _ => ⟨by decide, fun _ => by decide⟩

/-- ExecuteFollowsLegalityTable: each clause. -/
theorem witness_legality :
    aborted.runState = .faulted ∧ (0x30000041 : Word) ≠ 0x00000000 ∧ (0x30000041 : Word) ≠ 0x10000000 ∧
      (0x30000041 : Word) ≠ 0x20000000 ∧ encStart.runState ≠ .faulted ∧
      decodeWord 0x60000000 = .error .reservedOp ∧ ¬ (decStart.runState = .active ∧ decStart.mode = .encode) ∧
      ¬ (encStart.runState = .active ∧ encStart.mode = .decode) ∧ State.reset.runState ≠ .active := by decide

/-- FaultLeavesDeterminedStatus and FaultsComeFromTheirCommands. -/
theorem witness_fault :
    exec .decSym encStart = .next (after .decSym encStart) ∧ (after .decSym encStart).runState = .faulted ∧
      after .decSym encStart ≠ encStart :=
  ⟨exec_after _ _, by decide, fun h => absurd (congrArg State.runState h) (by decide)⟩

/-- FaultLeavesDeterminedStatus: host accesses outside FAULTED that raise a fault. -/
theorem witness_host_fault :
    State.reset.runState ≠ .faulted ∧ (hostWrite 0x006 0 State.reset).runState = .faulted ∧
      (hostRead 0x006 State.reset).runState = .faulted := by decide

/-- RunStateTransitions and RunParametersAreLatched (MAXORD 3). -/
theorem witness_transition :
    let s := { State.reset with maxord := 3, pend := some 0x10000000 }
    step s = .next (stepped s) ∧ (stepped s).runState ≠ s.runState ∧ (stepped s).runW ≠ s.runW :=
  ⟨step_stepped _, by decide, by decide⟩

/-- ModeChangesOnlyByInitOrReset. -/
theorem witness_mode :
    step (State.reset.latch 0x20000000) = .next (stepped (State.reset.latch 0x20000000)) ∧
      (stepped (State.reset.latch 0x20000000)).mode ≠ (State.reset.latch 0x20000000).mode ∧
      Completes .initEnc State.reset (after .initEnc State.reset) ∧
      Completes .initDec State.reset (after .initDec State.reset) :=
  ⟨step_stepped _, by decide, completes_after (by decide), completes_after (by decide)⟩

/-- FaultedKeepsFirstCode. -/
theorem witness_faulted : aborted.runState = .faulted ∧ step aborted = .next (stepped aborted) :=
  ⟨rfl, step_stepped _⟩

/-- InitEncStartsRun and InitDecStartsRun: both MAXORD values and another, IN_LEN at and above the limit. -/
theorem witness_init :
    State.reset.maxord = 2 ∧ (hostWrite 0x008 3 State.reset).maxord = 3 ∧
      ¬ ((hostWrite 0x008 1 State.reset).maxord = 2 ∨ (hostWrite 0x008 1 State.reset).maxord = 3) ∧
      (hostWrite 0x00C 524288 State.reset).inLen.toNat ≤ 524288 ∧
      524288 < (hostWrite 0x00C 524289 State.reset).inLen.toNat := by decide

/-- FinishEndsRun, each clause: STRADDLE at its limit, exactly the room that Flush needs, and one bit less. -/
theorem witness_finish :
    decA4.runState = .active ∧ decA4.mode = .decode ∧ encA4.runState = .active ∧ encA4.mode = .encode ∧
      ({ encA4 with straddle := 4294967295 } : State).straddle.toNat = 4294967295 ∧
      ({ encA4 with outLen := 524286 } : State).outLen.toNat + encA4.straddle.toNat + 2 ≤ 524288 ∧
      524288 < ({ encA4 with outLen := 524287 } : State).outLen.toNat + encA4.straddle.toNat + 2 := by decide

/-- RunStateTransitions: FINISH of a run. -/
theorem witness_finish_completes :
    let s := { encStart with obuf := [(0x20000, 0)] }
    Completes .finish s (after .finish s) := completes_after (by decide)

/-- CoreNeverWritesHostData. -/
theorem witness_coreStep : coreStep State.reset = .next State.reset := rfl

/-- EstimatePasses: each clause, and the largest exclusion set. -/
theorem witness_estimate_passes :
    Config.build.probArith = .exact ∧ (alphabet.drop 1).length ≤ 255 ∧ (alphabet.drop 1).Nodup ∧
      (CtxRecord.mk 3 [(65, 3)]).cnt 66 = 0 ∧ 0 < (CtxRecord.mk 3 [(65, 3)]).cnt 65 ∧
      0 < (CtxRecord.mk 3 [(65, 3)]).total - (([] : List Symbol).map (CtxRecord.mk 3 [(65, 3)]).cnt).sum ∧
      (CtxRecord.mk 3 [(65, 3)]).Sound Config.build := by
  refine ⟨rfl, by decide +kernel, by decide +kernel, by decide, by decide, by decide, ?_⟩
  exact witness_sound_table.records ([], ⟨3, [(65, 3)]⟩) (by decide)

/-- ColdModelIsUniform. -/
theorem witness_cold : (256 : Nat) ≤ 256 := by decide

/-- ObserveUpdatesRecords: the symbol that the longest context holds, and one that no context holds. -/
theorem witness_observe :
    (okOf (observeFrom Config.build [65, 65] 65 ([65, 65] : Context).length.succ tableA4)).isSome = true ∧
      (okOf (observeFrom Config.build [65, 65] 66 ([65, 65] : Context).length.succ tableA4)).isSome = true := by
  decide +kernel

/-- ObserveLimits: a full table, an unbounded one, and a record at the limit of 2-bit counts. -/
theorem witness_observe_limits :
    Table.record? ([] : Table) (ctx [65] 1) = none ∧ ({ Config.build with ctxCap := some 0 } : Config.Build).ctxCap = some 0 ∧
      unbounded.ctxCap = none ∧ tableA4.record? (ctx [65] 0) = some ⟨3, [(65, 3)]⟩ ∧ tableA4.record? [] = some ⟨3, [(65, 3)]⟩ ∧
      2 ^ ({ unbounded with cntW := 2 } : Config.Build).cntW - 1 < (CtxRecord.mk 3 [(65, 3)]).cnt 65 + 1 ∧
      unbounded.floorRecord = .increment := by decide

/-- SlideKeepsLastSymbols: a full window and one that is not. -/
theorem witness_slide :
    1 ≤ 2 ∧ ([65, 66] : Context).length ≤ 2 ∧ ([65] : Context).length ≤ 2 := by decide

/-- CountsNeverFallWithinRun, EncSymFrame, OutputIsAppendOnly, EncodingIsDeterminedByRunState and
NarrowedLoAboveOneNeverCompletes. -/
theorem witness_encSym :
    Completes (.encSym 65) encA4 (after (.encSym 65) encA4) ∧ encA4.outLen.toNat ≤ 524288 ∧
      encA4.table.record? [65] = some ⟨2, [(65, 2)]⟩ :=
  ⟨completes_after (by decide +kernel), by decide, by decide⟩

/-- DecSymFrame, and with it EncoderAndDecoderStayInLockstep and NarrowedLoAboveOneNeverCompletes. -/
theorem witness_decSym :
    Completes .decSym decA4 (after .decSym decA4) ∧ (after .decSym decA4).sym = 65 ∧ encA4.table = decA4.table ∧
      encA4.hist = decA4.hist ∧ encA4.runW = decA4.runW ∧ encA4.lo = decA4.lo ∧ encA4.hi = decA4.hi :=
  ⟨completes_after (by decide +kernel), by decide +kernel, rfl, rfl, rfl, rfl, rfl⟩

/-- An estimate with F[0] = 0 and P[0] = p. -/
def single (p : ℚ) : Estimate := { P := [p], F := [0, p] }

/-- NarrowOutcomes: each clause; r = 1 at the top of the register, r = 2^32, and r * P[0] just below 1 and at 1. -/
theorem witness_narrow :
    (single 0).p 0 = 0 ∧
      ((single 1).p 0 ≠ 0 ∧ 2 ^ 64 - 1 < (2 ^ 64 - 1) + ⌈(1 : ℚ) * (single 1).f 0⌉₊ + ⌊(1 : ℚ) * (single 1).p 0⌋₊) ∧
      ((single (1 / 4294967297)).p 0 ≠ 0 ∧ (single (1 / 4294967297)).p 0 < 1 / ((4294967295 : ℚ) + 1 - 0)) ∧
      1 / ((4294967295 : ℚ) + 1 - 0) ≤ (single (1 / 4294967296)).p 0 ∧ encStart.lo.toNat ≤ encStart.hi.toNat := by
  decide +kernel

/-- AdjacentIntervalsAbut and LocateFindsTheBucket: VALUE in and below the interval. -/
theorem witness_locate :
    decA4.lo.toNat ≤ decA4.hi.toNat ∧ decA4.lo.toNat ≤ decA4.value.toNat ∧ decStart.lo.toNat ≤ decStart.value.toNat ∧
      ({ decA4 with value := 1824659419 } : State).value.toNat < decA4.lo.toNat ∧ (254 : Symbol).toNat < 255 := by decide

/-- DecodeNarrowKeepsValueInside and LocateInvertsNarrow: 'A' is located and narrowed to, and x < F[256]. -/
theorem witness_narrow_located :
    let e := estimate Config.build tableA4 [65, 65]
    okOf (locate Config.build e decA4) = some 65 ∧ (okOf (narrow Config.build e 65 decA4)).isSome = true ∧
      ((decA4.value.toNat - decA4.lo.toNat) / (decA4.hi.toNat + 1 - decA4.lo.toNat) : ℚ) < e.f 256 ∧
      narrowedLo Config.build e 65 decA4 ≤ decA4.value.toNat ∧
      decA4.value.toNat < narrowedLo Config.build e 66 decA4 := by decide +kernel

/-- EmitAppendsOneBit: OUT_LEN at the end of OBUF and one before it. -/
theorem witness_emit :
    ({ encA4 with outLen := 524288 } : State).outLen.toNat = 524288 ∧
      ({ encA4 with outLen := 524287 } : State).outLen.toNat ≠ 524288 ∧ (0x20000 : Nat) ≠ streamByte obufBase 9 := by
  decide

/-- AbsorbReadsStreamThenPadding: the last stream bit, the padding's ends, and the first position past it. -/
theorem witness_absorb :
    ({ decA4 with cursor := 40 } : State).cursor.toNat < decA4.runLen.toNat ∧
      decA4.runLen.toNat ≤ decA4.cursor.toNat ∧
      ({ decA4 with cursor := 72 } : State).cursor.toNat < decA4.runLen.toNat + 32 ∧
      decA4.runLen.toNat + 32 ≤ ({ decA4 with cursor := 73 } : State).cursor.toNat := by decide

/-- StraddleIncAddsOneOrFaults: at and below the limit. -/
theorem witness_straddle :
    ({ encA4 with straddle := 0xFFFFFFFF } : State).straddle.toNat = 2 ^ 32 - 1 ∧
      ({ encA4 with straddle := 0xFFFFFFFE } : State).straddle.toNat ≠ 2 ^ 32 - 1 := by decide

/-- RenormPassEmitsOwedBits: a pass of each case at the ends of its range (R139). -/
theorem witness_renorm_pass :
    (renormCase 0 2147483647 = some .low ∧
        (okOf (renormEncPass Config.build .low { encStart with hi := 2147483647 })).isSome = true) ∧
      (renormCase 2147483648 4294967296 = some .high ∧
        (okOf (renormEncPass Config.build .high { encStart with lo := 2147483648, hi := 4294967296 })).isSome = true) ∧
      (renormCase 1073741824 3221225471 = some .mid ∧
        (okOf (renormEncPass Config.build .mid { encStart with lo := 1073741824, hi := 3221225471 })).isSome = true) := by
  decide

/-- RenormEncAccountsForBits, RenormDecMirrorsRenormEnc and RenormBoundIsNeverReached: the interval of 'A' after the first
narrowing (V-A1). -/
theorem witness_renorm :
    let s := { encStart with lo := 1090519040, hi := 1107296256 }
    let d := { decA4 with lo := 1090519040, hi := 1107296256, value := 1098907648 }
    (okOf (renormEnc Config.build s)).isSome = true ∧ (okOf (renormDec Config.build d)).isSome = true ∧
      s.lo = d.lo ∧ s.hi = d.hi ∧ s.lo.toNat ≤ s.hi.toNat ∧ d.lo.toNat ≤ d.value.toNat ∧
      d.value.toNat ≤ d.hi.toNat := by decide +kernel

/-- An interval of width W can be stretched at most k times within 2^32, when k + 1 times is too much. -/
theorem stretches_le {n W k : Nat} (h : 2 ^ n * W ≤ 2 ^ 32) (hk : 2 ^ 32 < 2 ^ (k + 1) * W) : n ≤ k := by
  by_contra hn
  have := Nat.mul_le_mul_right W (Nat.pow_le_pow_right (by decide : 0 < 2) (by omega : k + 1 ≤ n))
  omega

theorem encA4_narrowed :
    narrowedLo Config.build (estimate Config.build tableA4 [65, 65]) 65 encA4 = 1946303382 ∧
      narrowedHi Config.build (estimate Config.build tableA4 [65, 65]) 65 encA4 = 2900740618 := by decide +kernel

theorem tableA4_seen : ¬ ∃ k ≤ encA4.hist.length, encA4.table.record? (ctx encA4.hist k) = none := by decide

/-- EncSymCompletes: every hypothesis. -/
theorem witness_encSym_completes :
    let e := estimate Config.build encA4.table encA4.hist
    let l := narrowedLo Config.build e 65 encA4
    let h := narrowedHi Config.build e 65 encA4
    encA4.runState = .active ∧ encA4.mode = .encode ∧ encA4.table.Sound Config.build encA4.runW.toNat ∧
      (∀ e ∈ encA4.table, e.2.total + 2 ≤ 4294967295) ∧
      (∀ n, Config.CTX_CAP = some n → (∃ k ≤ encA4.hist.length, encA4.table.record? (ctx encA4.hist k) = none) →
        encA4.table.length + encA4.hist.length + 1 ≤ n) ∧
      encA4.lo.toNat ≤ encA4.hi.toNat ∧
      1 ≤ (encA4.range : ℚ) * estimateOne Config.build encA4.table encA4.hist 65 ∧ l ≤ 4294967295 ∧
      ∀ n, 2 ^ n * (min h 4294967295 + 1 - l) ≤ 2 ^ 32 →
        4294967295 + 2 ^ n * (h - 4294967295) < 2 ^ 64 ∧ encA4.outLen.toNat + encA4.straddle.toNat + n ≤ 524288 := by
  intro e l h
  have hl : l = 1946303382 := encA4_narrowed.1
  have hh : h = 2900740618 := encA4_narrowed.2
  refine ⟨rfl, rfl, witness_sound_table, by decide, fun _ _ h => absurd h tableA4_seen, by decide, by decide +kernel,
    by omega, fun n hn => ?_⟩
  rw [hl, hh] at *
  have := stretches_le (k := 2) hn (by decide)
  have : encA4.outLen.toNat + encA4.straddle.toNat = 9 := by decide
  omega

/-- The decode run of encA4's model near the start of a stream of 18 bits: CURSOR above RUN_LEN. -/
def decShort : State := { decA4 with cursor := 32, runLen := 18 }

/-- DecSymCompletes: every hypothesis, with CURSOR above RUN_LEN. -/
theorem witness_decSym_completes :
    let e := estimate Config.build decShort.table decShort.hist
    let l := narrowedLo Config.build e 65 decShort
    let h := narrowedHi Config.build e 65 decShort
    decShort.runState = .active ∧ decShort.mode = .decode ∧ decShort.table.Sound Config.build decShort.runW.toNat ∧
      (∀ e ∈ decShort.table, e.2.total + 2 ≤ 4294967295) ∧
      (∀ n, Config.CTX_CAP = some n → (∃ k ≤ decShort.hist.length, decShort.table.record? (ctx decShort.hist k) = none) →
        decShort.table.length + decShort.hist.length + 1 ≤ n) ∧
      decShort.lo.toNat ≤ decShort.hi.toNat ∧ decShort.lo.toNat ≤ decShort.value.toNat ∧
      e.f (65 : Symbol).toNat * decShort.range ≤ decShort.value.toNat - decShort.lo.toNat ∧
      (decShort.value.toNat - decShort.lo.toNat : ℚ) < e.f ((65 : Symbol).toNat + 1) * decShort.range ∧
      1 ≤ (decShort.range : ℚ) * estimateOne Config.build decShort.table decShort.hist 65 ∧ l ≤ 4294967295 ∧
      ∀ n, 2 ^ n * (min h 4294967295 + 1 - l) ≤ 2 ^ 32 →
        4294967295 + 2 ^ n * (h - 4294967295) < 2 ^ 64 ∧
        (decShort.value.toNat ≤ h ∨ 2 ^ n * (decShort.value.toNat + 1) ≤ 2 ^ 64) ∧
        decShort.cursor.toNat + n ≤ decShort.runLen.toNat + 32 := by
  intro e l h
  have hl : l = 1946303382 := encA4_narrowed.1
  have hh : h = 2900740618 := encA4_narrowed.2
  refine ⟨rfl, rfl, witness_sound_table, by decide, fun _ _ h => absurd h tableA4_seen, by decide, by decide,
    by decide +kernel, by decide +kernel, by decide +kernel, by omega, fun n hn => ?_⟩
  rw [hl, hh] at *
  have := stretches_le (k := 2) hn (by decide)
  have : decShort.value.toNat = 2000000000 ∧ decShort.cursor.toNat = 32 ∧ decShort.runLen.toNat = 18 := by decide
  omega

/-- The order-0 record after each of the 256 symbols has been coded once: a new symbol is counted twice there (R116, R118),
so every count is 2 (log entry 7). -/
def tableAll : Table := [([], ⟨512, alphabet.map (fun a => (a, 2))⟩)]

/-- A decode run on tableAll with VALUE at the top of the interval. -/
def decAll : State := { decA4 with table := tableAll, hist := [], lo := 0, hi := 4294967295, value := 4294967295 }

/-- DecSymCompletes: x ≥ F[256], where 255 is located and VALUE is above the narrowed HI. -/
theorem witness_decSym_above :
    let e := estimate Config.build decAll.table decAll.hist
    okOf (locate Config.build e decAll) = some 255 ∧
      e.f 256 * decAll.range ≤ decAll.value.toNat - decAll.lo.toNat ∧
      narrowedLo Config.build e 255 decAll = 4269850529 ∧ narrowedHi Config.build e 255 decAll = 4286595040 ∧
      ∀ n, 2 ^ n * (min 4286595040 4294967295 + 1 - 4269850529) ≤ 2 ^ 32 →
        2 ^ n * (decAll.value.toNat + 1) ≤ 2 ^ 64 ∧ decAll.cursor.toNat + n ≤ decAll.runLen.toNat + 32 := by
  refine ⟨by decide +kernel, by decide +kernel, by decide +kernel, by decide +kernel, fun n hn => ?_⟩
  have := stretches_le (k := 8) hn (by decide)
  have hp := Nat.mul_le_mul_right 4294967296 (Nat.pow_le_pow_right (by decide : 0 < 2) this)
  have hv : decAll.value.toNat + 1 = 4294967296 ∧ decAll.cursor.toNat = 41 ∧ decAll.runLen.toNat = 41 := by decide
  rw [hv.1]
  omega

/-- R113 against R104 to R110: on tableAll each P[s] is (2 / 512) * (1 - 1 / 513), by R110, and their sum is not 1. -/
theorem witness_sum_below_one :
    (estimate Config.build tableAll []).p 65 = 2 / 513 ∧ (estimate Config.build tableAll []).f 256 = 512 / 513 := by
  decide +kernel

/-- R39(e) against R104 to R110, R133, R137 and R146: from LO ≤ VALUE ≤ HI, DEC_SYM ends without a fault in VALUE > HI. -/
theorem witness_value_above_hi :
    decAll.lo.toNat ≤ decAll.value.toNat ∧ decAll.value.toNat ≤ decAll.hi.toNat ∧
      (after .decSym decAll).runState = .active ∧ (after .decSym decAll).hi.toNat < (after .decSym decAll).value.toNat := by
  decide +kernel

/-- The fault a result raises. -/
def errorOf {α : Type} : Except FaultCode α → Option FaultCode
  | .ok _ => none
  | .error e => some e

/-- SymbolCommandsFollowTheirSteps: a fault of each step. -/
theorem witness_steps_fault :
    let e := estimate Config.build tableA4 [65, 65]
    errorOf (locate Config.build e { decA4 with value := 1824659419 }) = some .noSymbol ∧
      errorOf (narrow Config.build e 65 { encA4 with hi := encA4.lo }) = some .zeroInterval ∧
      errorOf (observeFrom Config.build [] 65 1 [([], ⟨4294967295, [(65, 4294967295)]⟩)]) = some .countOverflow ∧
      errorOf (renormEnc Config.build { encStart with hi := 1, outLen := 524288 }) = some .sinkFull ∧
      errorOf (renormDec Config.build { decA4 with lo := 0, hi := 1, value := 0, cursor := 73 }) =
        some .sourceExhausted := by decide +kernel

/-- SymbolCommandsFollowTheirSteps: every step of both commands completes. -/
theorem witness_steps_complete :
    let e := estimate Config.build tableA4 [65, 65]
    okOf (locate Config.build e decA4) = some 65 ∧
      (okOf (narrow Config.build e 65 encA4)).map (fun u => (okOf (renormEnc Config.build u)).isSome) = some true ∧
      (okOf (narrow Config.build e 65 decA4)).map (fun u => (okOf (renormDec Config.build u)).isSome) = some true ∧
      (okOf (observeFrom Config.build [65, 65] 65 3 tableA4)).isSome = true := by decide +kernel

end Sys2Proof.Tests
end

section
/-! PROOF. What a step, a host move, a core step and a completed command leave, once each: the inversions that the
proofs of the state's obligations use. -/

namespace Sys2Proof.Machine

variable {s t : State} {i : Instr}

/-! ## What a completed command leaves -/

/-- t has the host's data and the host's own record of s: what no core step writes (R28, R54, R242). -/
structure KeepsHostData (s t : State) : Prop where
  ibuf     : t.ibuf = s.ibuf
  ibufDraw : t.ibufDraw = s.ibufDraw
  maxord   : t.maxord = s.maxord
  inLen    : t.inLen = s.inLen
  readData : t.readData = s.readData
  agenda   : t.agenda = s.agenda

/-- What a command that starts no run keeps: the host's data, and what INIT latched (R27, R30). -/
structure KeepsRun (s t : State) : Prop extends KeepsHostData s t where
  mode   : t.mode = s.mode
  runLen : t.runLen = s.runLen
  runW   : t.runW = s.runW
  fault  : t.fault = s.fault

theorem KeepsRun.refl (s : State) : KeepsRun s s := ⟨⟨rfl, rfl, rfl, rfl, rfl, rfl⟩, rfl, rfl, rfl, rfl⟩

/-- Narrow and Observe write the interval, T and H; T is what Observe makes of it (R115, R135). -/
theorem codeSymbol_frame {b : Config.Build} {es : Estimate} {a : Symbol} (h : codeSymbol b es a s = .ok t) :
    narrow b es a s = .ok (s.setInterval (narrowedLo b es a s) (narrowedHi b es a s)) ∧
    observeFrom b s.hist a (s.hist.length + 1) s.table = .ok t.table ∧
    t = (s.setInterval (narrowedLo b es a s) (narrowedHi b es a s)).setModel t.table (slide s.runW.toNat s.hist a) := by
  obtain ⟨u, hn, ho⟩ := codeSymbol_ok h
  obtain ⟨-, -, -, -, rfl⟩ := narrow_ok hn
  obtain ⟨T, hT, rfl⟩ := observe_ok ho
  exact ⟨hn, hT, rfl⟩

/-- ENC_SYM writes the interval, the output, T, H and SYMCOUNT (R175). -/
theorem encSymRule_frame {b : Config.Build} {a : Symbol} (h : encSymRule b a s = .ok t) :
    observeFrom b s.hist a (s.hist.length + 1) s.table = .ok t.table ∧
    t = { s with lo := t.lo, hi := t.hi, obuf := t.obuf, outLen := t.outLen, straddle := t.straddle, table := t.table,
                 hist := slide s.runW.toNat s.hist a, symCount := t.symCount } := by
  obtain ⟨u, v, hc, hr, rfl⟩ := encSymRule_ok h
  obtain ⟨-, hT, hu⟩ := codeSymbol_frame hc
  have hv := renormEncLoop_frame hr
  have hTv : v.table = u.table := by rw [hv]
  rw [← hTv] at hT hu
  exact ⟨hT, by rw [hv, hu]; rfl⟩

/-- DEC_SYM writes the interval, VALUE, CURSOR, T, H, SYM, SYM_VALID and SYMCOUNT (R176). -/
theorem decSymRule_frame {b : Config.Build} (h : decSymRule b s = .ok t) :
    ∃ a, observeFrom b s.hist a (s.hist.length + 1) s.table = .ok t.table ∧
    t = { s with lo := t.lo, hi := t.hi, value := t.value, cursor := t.cursor, table := t.table,
                 hist := slide s.runW.toNat s.hist a, sym := a, symValid := true, symCount := t.symCount } := by
  obtain ⟨a, u, v, -, hc, hr, rfl⟩ := decSymRule_ok h
  obtain ⟨-, hT, hu⟩ := codeSymbol_frame hc
  have hv := renormDecLoop_frame hr
  have hTv : v.table = u.table := by rw [hv]
  rw [← hTv] at hT hu
  exact ⟨a, hT, by rw [hv, hu]; rfl⟩

/-- FINISH writes the output and STATE (R177). -/
theorem finishRule_frame {b : Config.Build} (h : finishRule b s = .ok t) :
    t = { s with runState := .terminated, obuf := t.obuf, outLen := t.outLen, straddle := t.straddle } := by
  rcases finishRule_ok h with ⟨-, rfl⟩ | ⟨-, u, hu, rfl⟩
  · rfl
  · rw [(flush_same hu).eq]; rfl

/-- A command that starts no run keeps what INIT latched and the host's data. -/
theorem ruleOf_keepsRun (h : ruleOf i s = .ok t) (he : i ≠ .initEnc) (hd : i ≠ .initDec) : KeepsRun s t := by
  cases i with
  | nop => injection h with h; exact h ▸ .refl s
  | initEnc => exact absurd rfl he
  | initDec => exact absurd rfl hd
  | encSym a =>
    obtain ⟨-, hf⟩ := encSymRule_frame h
    refine ⟨⟨?_, ?_, ?_, ?_, ?_, ?_⟩, ?_, ?_, ?_, ?_⟩ <;> rw [hf]
  | decSym =>
    obtain ⟨a, -, hf⟩ := decSymRule_frame h
    refine ⟨⟨?_, ?_, ?_, ?_, ?_, ?_⟩, ?_, ?_, ?_, ?_⟩ <;> rw [hf]
  | finish =>
    have hf := finishRule_frame h
    refine ⟨⟨?_, ?_, ?_, ?_, ?_, ?_⟩, ?_, ?_, ?_, ?_⟩ <;> rw [hf]

/-- What a completed command does to STATE (R29). -/
theorem ruleOf_runState (h : ruleOf i s = .ok t) :
    ((i = .initEnc ∨ i = .initDec) ∧ t.runState = .active) ∨ (i = .finish ∧ t.runState = .terminated) ∨
    t.runState = s.runState := by
  cases i with
  | nop => injection h with h; exact .inr (.inr (h ▸ rfl))
  | initEnc => obtain ⟨-, rfl⟩ := initEncRule_ok h; exact .inl ⟨.inl rfl, rfl⟩
  | initDec => obtain ⟨-, -, rfl⟩ := initDecRule_ok h; exact .inl ⟨.inr rfl, rfl⟩
  | encSym a => obtain ⟨-, hf⟩ := encSymRule_frame h; exact .inr (.inr (by rw [hf]))
  | decSym => obtain ⟨a, -, hf⟩ := decSymRule_frame h; exact .inr (.inr (by rw [hf]))
  | finish => exact .inr (.inl ⟨rfl, by rw [finishRule_frame h]⟩)

/-- No command writes the host's data. -/
theorem ruleOf_keepsHostData (h : ruleOf i s = .ok t) : KeepsHostData s t := by
  by_cases he : i = .initEnc
  · subst he; obtain ⟨-, rfl⟩ := initEncRule_ok h; exact ⟨rfl, rfl, rfl, rfl, rfl, rfl⟩
  · by_cases hd : i = .initDec
    · subst hd; obtain ⟨-, -, rfl⟩ := initDecRule_ok h; exact ⟨rfl, rfl, rfl, rfl, rfl, rfl⟩
    · exact (ruleOf_keepsRun h he hd).toKeepsHostData

/-! ## What a command of R171's table allows -/

theorem legality_finish (h : legality .finish s.runState s.mode = .ok) : s.runState = .active := by
  cases hr : s.runState <;> simp [hr, legality] at h ⊢

theorem legality_encSym {a : Symbol} (h : legality (.encSym a) s.runState s.mode = .ok) :
    s.runState = .active ∧ s.mode = .encode := by
  cases hr : s.runState <;> cases hm : s.mode <;> simp [hr, hm, legality] at h ⊢

theorem legality_decSym (h : legality .decSym s.runState s.mode = .ok) : s.runState = .active ∧ s.mode = .decode := by
  cases hr : s.runState <;> cases hm : s.mode <;> simp [hr, hm, legality] at h ⊢

/-- R171's table ignores commands in FAULTED only. -/
theorem faulted_of_legality_ignored (h : legality i s.runState s.mode = .ignored) : s.runState = .faulted := by
  cases i <;> cases hr : s.runState <;> cases hm : s.mode <;> simp [hr, hm, legality] at h ⊢

/-- A command that completes has run its rule, which R171 allows. -/
theorem completes_rule (h : Completes i s t) : legality i s.runState s.mode = .ok ∧ ruleOf i s = .ok t := by
  obtain ⟨hx, hf⟩ := h
  rw [exec_eq] at hx
  rcases issue_next hx with ⟨hl, rfl⟩ | ⟨-, rfl⟩ | ⟨hl, hr⟩ | ⟨-, e, -, rfl⟩
  · exact absurd (faulted_of_legality_ignored hl) hf
  · exact absurd rfl hf
  · exact ⟨hl, hr⟩
  · exact absurd rfl hf

/-! ## Steps -/

/-- A state in which BUSY = 0 has nothing to retire. -/
theorem retire_eq_self (h : s.pend = none) : s.retire = s := by
  unfold State.retire; rw [← h]

/-- What the core's turn can do (R170, R171): empty PEND, raise a fault, or run the latched command's rule. -/
theorem coreStep_cases (h : coreStep s = .next t) :
    t = s.retire ∨ (∃ c, c ≠ .noFault ∧ t = s.raise c) ∨
    ∃ w i u, s.pend = some w ∧ decodeWord w = .ok i ∧ legality i s.runState s.mode = .ok ∧ ruleOf i s = .ok u ∧
      t = u.retire := by
  rcases coreStep_next h with ⟨hp, rfl⟩ | ⟨w, u, hw, hx, rfl⟩
  · exact .inl (retire_eq_self hp).symm
  · rcases executeWord_next hx with rfl | ⟨-, rfl⟩ | ⟨i, hi, hl, hr | ⟨c, hc, rfl⟩⟩
    · exact .inl rfl
    · exact .inr (.inl ⟨.illegalCommand, by decide, rfl⟩)
    · exact .inr (.inr ⟨w, i, u, hw, hi, hl, hr, rfl⟩)
    · exact .inr (.inl ⟨c, ruleOf_error hc, rfl⟩)

/-- What a step can do: a core step or a host move, from the state with some agenda (R20). -/
theorem step_cases (h : step s = .next t) :
    (∃ l, coreStep (s.setAgenda l) = .next t) ∨ ∃ m l, s.agenda = .host m :: l ∧ t = hostMove m (s.setAgenda l) := by
  rcases step_next h with ⟨s', ⟨rfl, -⟩ | ⟨l, -, rfl⟩, hc⟩ | hm
  · exact .inl ⟨s'.agenda, hc⟩
  · exact .inl ⟨l, hc⟩
  · exact .inr hm

/-! ## Host moves -/

/-- What a host move leaves that raises nothing and is no RESET: it writes PEND, CONFIG, IN_LEN, IBUF and the host's own
record only, and keeps IBUF canonical (R170, R179, R180, R60). -/
structure HostEffect (s t : State) : Prop where
  eq   : t = { s with pend := t.pend, maxord := t.maxord, inLen := t.inLen, ibuf := t.ibuf, readData := t.readData,
                      draws := t.draws }
  ibuf : Memory.Sound ibufBase s.ibuf → Memory.Sound ibufBase t.ibuf

theorem toNat_mod_four_of_aligned {a : Addr} (h : misaligned a = false) : a.toNat % 4 = 0 := by
  have h0 : a.extractLsb' 0 2 = 0 := by simpa [misaligned] using h
  have := congrArg BitVec.toNat h0
  simpa [BitVec.extractLsb'_toNat] using this

/-- The register block holds no buffer word (R40). -/
theorem registerAt_ne_ibuf (k n : Nat) : registerAt k ≠ .ibuf n := by
  unfold registerAt; split <;> simp

/-- An IBUF target is an address of the IBUF window (R50). -/
theorem targetOf_ibuf {a : Addr} {n : Nat} (h : targetOf a = .ibuf n) :
    n = a.toNat ∧ ibufBase ≤ n ∧ n < ibufBase + 0x10000 := by
  unfold targetOf at h
  split at h
  · exact absurd h (registerAt_ne_ibuf _ _)
  · split at h
    · injection h
    · split at h
      · injection h with h; unfold ibufBase; omega
      · split at h <;> injection h

/-- The targets a host write may have, and what it writes there (R170, R179). -/
theorem writeTarget_some {x : Target} {v : Word} (h : s.writeTarget v x = some t) :
    t = s.latch v ∨ t = s.setConfig v ∨ t = s.setInLen v ∨ ∃ n, x = .ibuf n ∧ t = s.putIbufWord n v := by
  cases x <;> simp only [State.writeTarget, reduceCtorEq, Option.some.injEq] at h <;> simp [← h]

/-- The effects of an aligned host write (R170, R179). -/
theorem writeTarget_effect {a : Addr} {v : Word} (ha : misaligned a = false)
    (h : s.writeTarget v (targetOf a) = some t) : HostEffect s t := by
  rcases writeTarget_some h with rfl | rfl | rfl | ⟨n, hn, rfl⟩
  · exact ⟨rfl, id⟩
  · exact ⟨rfl, id⟩
  · exact ⟨rfl, id⟩
  · obtain ⟨rfl, h₁, h₂⟩ := targetOf_ibuf hn
    have h₃ := toNat_mod_four_of_aligned ha
    exact ⟨rfl, fun hs => hs.putIbufWord v h₁ (by unfold ibufBase at *; omega)⟩

/-- What a host move can do: RESET, a fault of the access, or an effect (R218, R230). -/
theorem hostMove_cases (m : HostMove) (s : State) :
    (m = .reset ∧ hostMove m s = s.assertReset) ∨
    (∃ c, c ≠ .noFault ∧ hostMove m s = { s.raiseHost c with readData := (hostMove m s).readData }) ∨
    HostEffect s (hostMove m s) := by
  cases m with
  | write a v =>
    refine .inr ?_
    rcases hostWrite_cases a v s with ⟨-, h⟩ | ⟨-, -, h⟩ | ⟨-, ha, h⟩
    · exact .inl ⟨.overrun, by decide, by rw [hostMove, h]⟩
    · exact .inl ⟨.busError, by decide, by rw [hostMove, h]⟩
    · exact .inr (writeTarget_effect ha h)
  | read a =>
    refine .inr ?_
    rcases hostRead_cases a s with ⟨w, h⟩ | ⟨-, h⟩ | ⟨-, h⟩
    · exact .inr (by rw [hostMove, h]; exact ⟨rfl, id⟩)
    · exact .inr (by rw [hostMove, h]; exact ⟨rfl, id⟩)
    · exact .inl ⟨.busError, by decide, by rw [hostMove, h]; rfl⟩
  | reset => exact .inl ⟨rfl, rfl⟩

/-- Outside FAULTED a host access raises its own code. -/
theorem raiseHost_of_not_faulted {c : FaultCode} (h : s.runState ≠ .faulted) : s.raiseHost c = s.raise c := by
  rw [State.raiseHost, if_neg h]

/-- An aligned read with BUSY = 0 delivers what its target reads (R180). -/
theorem hostRead_of_target {a : Addr} {w : Word} (hb : s.busy = false) (ha : misaligned a = false)
    (h : s.readTarget (targetOf a) = some w) : hostRead a s = s.deliver w := by
  simp [hostRead, hb, ha, h]

theorem misaligned_eq_false {a : Addr} (h : a.toNat % 4 = 0) : misaligned a = false := by
  have : a.extractLsb' 0 2 = 0 := BitVec.eq_of_toNat_eq (by simpa [BitVec.extractLsb'_toNat] using h)
  simp [misaligned, this]

/-! ## STATUS -/

/-- Bit i of STATUS, field by field (R41). -/
theorem getLsbD_status (s : State) (i : Nat) :
    s.status.getLsbD i =
      if i < 2 then s.runState.bits.getLsbD i else if i = 2 then s.mode.bit else if i = 3 then s.busy
      else if i = 4 then s.inputDone else if i = 5 then s.symValid else if i < 8 then false
      else if i < 12 then s.fault.code.getLsbD (i - 8) else false := by
  unfold State.status
  simp only [BitVec.getLsbD_append]
  rcases i with _ | _ | _ | _ | _ | _ | _ | _ | _ | _ | _ | _ | i <;> simp

theorem status_runState (s : State) : s.status.extractLsb' 0 2 = s.runState.bits := by
  refine BitVec.eq_of_getLsbD_eq fun i hi => ?_
  simp [getLsbD_status, hi]

theorem status_fault (s : State) : s.status.extractLsb' 8 4 = s.fault.code := by
  refine BitVec.eq_of_getLsbD_eq fun i hi => ?_
  simp (disch := omega) only [BitVec.getLsbD_extractLsb', getLsbD_status, hi, if_neg, if_pos]
  simp

theorem status_reserved (s : State) : s.status.extractLsb' 6 2 = 0 ∧ s.status.extractLsb' 12 20 = 0 := by
  constructor <;> refine BitVec.eq_of_getLsbD_eq fun i hi => ?_ <;>
    simp (disch := omega) only [BitVec.getLsbD_extractLsb', getLsbD_status, hi, if_neg, if_pos] <;> simp

/-- INPUT_DONE, as R150 says. -/
theorem inputDone_iff (s : State) :
    s.inputDone = true ↔
      s.mode = .decode ∧ (s.runState = .active ∨ s.runState = .terminated) ∧ s.runLen.toNat ≤ s.cursor.toNat := by
  simp [State.inputDone, and_assoc]

/-- STATUS in FAULTED is 3, MODE and FAULT (R47). -/
theorem status_raise (s : State) (c : FaultCode) :
    (s.raise c).status =
      0x00000003 ||| ((BitVec.ofBool s.mode.bit).setWidth 32 <<< 2) ||| (c.code.setWidth 32 <<< 8) := by
  have hb : (s.raise c).busy = false := rfl
  have hd : (s.raise c).inputDone = false := by simp [State.inputDone]
  have layout : ∀ (m : Bool) (x : BitVec 4),
      (0 : BitVec 20) ++ x ++ (0 : BitVec 2) ++ BitVec.ofBool false ++ BitVec.ofBool false ++ BitVec.ofBool false ++
        BitVec.ofBool m ++ (3 : BitVec 2) =
        (3 : BitVec 32) ||| ((BitVec.ofBool m).setWidth 32 <<< 2) ||| (x.setWidth 32 <<< 8) := by decide
  unfold State.status
  rw [hb, hd]
  exact layout s.mode.bit c.code

end Sys2Proof.Machine
end

section
/-! PROOF. The obligations on steps, reset, the transitions of STATE and MODE, faults, and the host's reads. -/

namespace Sys2Proof.Machine

/-- Settles O6: `step` unfolded at each event. -/
theorem stepPerformsHostMoves : Obligations.StepPerformsHostMoves := by
  intro s
  have hp (hb : s.busy = false) : s.pend = none := by simpa [State.busy] using hb
  refine ⟨fun _ _ => rfl, fun _ => rfl, rfl, fun _ => rfl, fun hb => ?_, fun hb ha => ?_⟩
  · show coreStep s = .next s
    rw [coreStep, hp hb]
  · rw [step, ha]
    show coreStep s = .next s
    rw [coreStep, hp hb]

/-- Settles O8: `State.reset` lists R46's values, and a buffer that lists nothing reads from its draw. -/
theorem resetValues : Obligations.ResetValues :=
  ⟨rfl, rfl, rfl, rfl, rfl, rfl, rfl, rfl, rfl, rfl, rfl, rfl, rfl, rfl, rfl, rfl, rfl, rfl, rfl, rfl,
    fun _ => ⟨rfl, rfl⟩⟩

/-- Outside FAULTED a command's rule leaves FAULTED to `raise`. -/
theorem ruleOf_not_faulted {s t : State} {i : Instr} (h : ruleOf i s = .ok t) (hs : s.runState ≠ .faulted) :
    t.runState ≠ .faulted := by
  rcases ruleOf_runState h with ⟨-, ht⟩ | ⟨-, ht⟩ | ht <;> rw [ht]
  · decide
  · decide
  · exact hs

/-- What R171's table runs in FAULTED is NOP or an INIT. -/
theorem legality_ok_of_faulted {s : State} {i : Instr} (h : legality i s.runState s.mode = .ok)
    (hs : s.runState = .faulted) : i = .nop ∨ i = .initEnc ∨ i = .initDec := by
  rw [hs] at h
  cases i <;> simp [legality] at h ⊢

/-- A command that ends in FAULTED and changes the state has raised a fault (R216). -/
theorem exec_faulted {i : Instr} {s t : State} (h : exec i s = .next t) (ht : t.runState = .faulted) (hne : t ≠ s) :
    ∃ c, c ≠ .noFault ∧ t = s.raise c := by
  rw [exec_eq] at h
  rcases issue_next h with ⟨-, rfl⟩ | ⟨-, rfl⟩ | ⟨hl, hr⟩ | ⟨-, c, hc, rfl⟩
  · exact absurd rfl hne
  · exact ⟨.illegalCommand, by decide, rfl⟩
  · by_cases hs : s.runState = .faulted
    · rcases legality_ok_of_faulted hl hs with rfl | rfl | rfl
      · injection hr with hr; exact absurd hr.symm hne
      · obtain ⟨-, rfl⟩ := initEncRule_ok hr; simp at ht
      · obtain ⟨-, -, rfl⟩ := initDecRule_ok hr; simp at ht
    · exact absurd ht (ruleOf_not_faulted hr hs)
  · exact ⟨c, ruleOf_error hc, rfl⟩

/-- A host access outside FAULTED that ends in FAULTED has raised a fault (R213, R214). -/
theorem hostMove_faulted {m : HostMove} {s : State} (hs : s.runState ≠ .faulted)
    (ht : (hostMove m s).runState = .faulted) :
    ∃ c, c ≠ .noFault ∧ hostMove m s = { s.raise c with readData := (hostMove m s).readData } := by
  rcases hostMove_cases m s with ⟨-, h⟩ | ⟨c, hc, h⟩ | h
  · rw [h] at ht; simp at ht
  · rw [raiseHost_of_not_faulted hs] at h; exact ⟨c, hc, h⟩
  · rw [h.eq] at ht; exact absurd ht hs

/-- A host write leaves the word last read. -/
theorem hostWrite_readData (a : Addr) (v : Word) (s : State) : (hostWrite a v s).readData = s.readData := by
  rcases hostWrite_cases a v s with ⟨-, h⟩ | ⟨-, -, h⟩ | ⟨-, -, h⟩
  · rw [h]; rfl
  · rw [h]; rfl
  · rcases writeTarget_some h with h | h | h | ⟨n, -, h⟩ <;> rw [h] <;> rfl

/-- Settles O14: `State.raise` field by field, and the inversions of `exec` and of a host move. -/
theorem faultLeavesDeterminedStatus : Obligations.FaultLeavesDeterminedStatus := by
  refine ⟨fun s c _ => ?_, fun i s t => exec_faulted, fun a v s hs => ⟨fun ht => ?_, fun ht => ?_⟩⟩
  · have hd : (s.raise c).inputDone = false := by simp [State.inputDone]
    exact ⟨rfl, rfl, rfl, rfl, rfl, hd, rfl, rfl, rfl, fun _ => rfl, status_raise s c, rfl, rfl, rfl, rfl, rfl, rfl,
      rfl, rfl, rfl, rfl, rfl, rfl, fun _ => rfl⟩
  · obtain ⟨c, hc, h⟩ := hostMove_faulted (m := .write a v) hs ht
    refine ⟨c, hc, h.trans ?_⟩
    rw [hostMove, hostWrite_readData]; rfl
  · exact hostMove_faulted (m := .read a) hs ht

/-- Settles O16: STATE after a host move, a fault and a completed command. -/
theorem runStateTransitions : Obligations.RunStateTransitions := by
  refine ⟨fun _ => rfl, fun s t h => ?_, fun s t h => ?_, fun s t h hne => ?_⟩
  · rcases h with h | h
    · obtain ⟨-, rfl⟩ := initEncRule_ok (completes_rule h).2; rfl
    · obtain ⟨-, -, rfl⟩ := initDecRule_ok (completes_rule h).2; rfl
  · obtain ⟨hl, hr⟩ := completes_rule h
    exact ⟨legality_finish hl, by rw [finishRule_frame hr]⟩
  · rcases step_cases h with ⟨l, hc⟩ | ⟨m, l, ha, rfl⟩
    · rcases coreStep_cases hc with rfl | ⟨c, -, rfl⟩ | ⟨w, i, u, hw, hi, hl, hr, rfl⟩
      · exact absurd rfl hne
      · exact .inr (.inr (.inr rfl))
      · rcases ruleOf_runState hr with ⟨rfl | rfl, hu⟩ | ⟨rfl, hu⟩ | hu
        · exact .inr (.inl ⟨w, hw, .inl hi, hu⟩)
        · exact .inr (.inl ⟨w, hw, .inr hi, hu⟩)
        · exact .inr (.inr (.inl ⟨w, hw, hi, legality_finish hl, hu⟩))
        · exact absurd hu hne
    · rcases hostMove_cases m (s.setAgenda l) with ⟨rfl, -⟩ | ⟨c, -, he⟩ | he
      · exact .inl ⟨by rw [ha]; rfl, rfl⟩
      · exact .inr (.inr (.inr (by rw [he]; rfl)))
      · exact absurd (by rw [he.eq]; rfl) hne

/-- Settles O17: MODE after a host move, a fault and a completed command. -/
theorem modeChangesOnlyByInitOrReset : Obligations.ModeChangesOnlyByInitOrReset := by
  refine ⟨fun s t h hne => ?_, fun s t h => ?_, fun s t h => ?_⟩
  · rcases step_cases h with ⟨l, hc⟩ | ⟨m, l, ha, rfl⟩
    · rcases coreStep_cases hc with rfl | ⟨c, -, rfl⟩ | ⟨w, i, u, hw, hi, -, hr, rfl⟩
      · exact absurd rfl hne
      · exact absurd rfl hne
      · by_cases he : i = .initEnc
        · subst he; obtain ⟨-, rfl⟩ := initEncRule_ok hr; exact .inr (.inl ⟨w, hw, hi, rfl⟩)
        · by_cases hd : i = .initDec
          · subst hd; obtain ⟨-, -, rfl⟩ := initDecRule_ok hr; exact .inr (.inr ⟨w, hw, hi, rfl⟩)
          · exact absurd (ruleOf_keepsRun hr he hd).mode hne
    · rcases hostMove_cases m (s.setAgenda l) with ⟨rfl, -⟩ | ⟨c, -, he⟩ | he
      · exact .inl ⟨by rw [ha]; rfl, rfl⟩
      · exact absurd (by rw [he]; rfl) hne
      · exact absurd (by rw [he.eq]; rfl) hne
  · obtain ⟨-, rfl⟩ := initEncRule_ok (completes_rule h).2; rfl
  · obtain ⟨-, -, rfl⟩ := initDecRule_ok (completes_rule h).2; rfl

/-- Settles O30: neither emptying PEND, nor a fault, nor a command's rule writes the host's data. -/
theorem coreNeverWritesHostData : Obligations.CoreNeverWritesHostData := by
  intro s t h
  rcases coreStep_cases h with rfl | ⟨c, -, rfl⟩ | ⟨w, i, u, -, -, -, hr, rfl⟩
  · exact ⟨rfl, rfl, rfl, rfl, rfl, rfl⟩
  · exact ⟨rfl, rfl, rfl, rfl, rfl, rfl⟩
  · have hk := ruleOf_keepsHostData hr
    exact ⟨hk.ibuf, hk.ibufDraw, hk.maxord, hk.inLen, hk.readData, hk.agenda⟩

/-- Settles O31: RUN_LEN and RUN_W after a host move, a fault and a completed command. -/
theorem runParametersAreLatched : Obligations.RunParametersAreLatched := by
  intro s t h hne
  rcases step_cases h with ⟨l, hc⟩ | ⟨m, l, ha, rfl⟩
  · rcases coreStep_cases hc with rfl | ⟨c, -, rfl⟩ | ⟨w, i, u, hw, hi, -, hr, rfl⟩
    · exact absurd hne (by simp)
    · exact .inr (.inl rfl)
    · by_cases he : i = .initEnc
      · subst he; obtain ⟨-, rfl⟩ := initEncRule_ok hr
        exact .inr (.inr (.inl ⟨w, hw, hi, rfl, rfl⟩))
      · by_cases hd : i = .initDec
        · subst hd; obtain ⟨-, -, rfl⟩ := initDecRule_ok hr
          exact .inr (.inr (.inr ⟨w, hw, hi, rfl, rfl⟩))
        · have hk := ruleOf_keepsRun hr he hd
          exact absurd hne (by simp [hk.runLen, hk.runW])
  · rcases hostMove_cases m (s.setAgenda l) with ⟨rfl, -⟩ | ⟨c, -, he⟩ | he
    · exact .inl (by rw [ha]; rfl)
    · exact .inr (.inl (by rw [he]; rfl))
    · exact absurd hne (by rw [he.eq]; simp)

/-- Settles O26: each address selects its register or buffer word, which an aligned read delivers. -/
theorem registerReadsDeliverContents : Obligations.RegisterReadsDeliverContents := by
  intro s hb
  have read {a : Addr} {w : Word} (ha : misaligned a = false) (h : s.readTarget (targetOf a) = some w) :
      hostRead a s = { s with readData := some w } := hostRead_of_target hb ha h
  have high (x : Reg) : x.extractLsb' 32 32 = (x >>> 32).setWidth 32 := by
    refine BitVec.eq_of_getLsbD_eq fun i hi => ?_; simp
  have low (x : Reg) : x.extractLsb' 0 32 = x.setWidth 32 := by
    refine BitVec.eq_of_getLsbD_eq fun i hi => ?_; simp
  rw [← high, ← high, ← high, ← low, ← low, ← low]
  refine ⟨read rfl rfl, read rfl rfl, read rfl rfl, read rfl rfl, read rfl rfl, read rfl rfl, read rfl rfl, read rfl rfl,
    read rfl rfl, read rfl rfl, read rfl rfl, read rfl rfl, read rfl rfl, read rfl rfl, read rfl rfl, read rfl rfl,
    fun a h₀ h₁ h₂ => read (misaligned_eq_false h₀) ?_, fun a h₀ h₁ h₂ => read (misaligned_eq_false h₀) ?_⟩
  · have : targetOf a = .ibuf a.toNat := by
      simp (disch := omega) only [targetOf, if_neg, if_pos]
    rw [this]; rfl
  · have : targetOf a = .obuf a.toNat := by
      simp (disch := omega) only [targetOf, if_neg, if_pos]
    rw [this]; rfl

/-- Settles O27: the fields of STATUS bit by bit; a write of it with BUSY = 0 has no target (R40, R214). -/
theorem statusFieldsReadState : Obligations.StatusFieldsReadState := by
  refine ⟨rfl, fun s v hb => ?_, fun s => ⟨?_, ?_, ?_, ?_, ?_, ?_, ?_, ?_⟩⟩
  · have hm : misaligned 0x004 = false := rfl
    simp only [hostWrite, hb, hm]; rfl
  · rw [status_runState]; cases s.runState <;> rfl
  · rw [getLsbD_status]; cases s.mode <;> simp [Mode.bit]
  · rw [getLsbD_status]; simp [State.busy, Option.isSome_iff_ne_none]
  · rw [getLsbD_status]; exact inputDone_iff s
  · rw [getLsbD_status]; rfl
  · exact (status_reserved s).1
  · exact status_fault s
  · exact (status_reserved s).2

end Sys2Proof.Machine
end

section
/-! PROOF. Observe never forgets (R36, R39(b)), and keeps order 0 ahead of the other orders: what any record has observed,
order 0 has observed. -/

namespace Sys2Proof

/-! ## Nothing is forgotten -/

/-- Every record of t is in t', with a total and counts that are no smaller (R36, R39(b)). -/
def Table.Grows (t t' : Table) : Prop :=
  ∀ c r, t.record? c = some r → ∃ r', t'.record? c = some r' ∧ r.total ≤ r'.total ∧ ∀ a, r.cnt a ≤ r'.cnt a

theorem Table.Grows.refl (t : Table) : t.Grows t := fun _ r hr => ⟨r, hr, le_rfl, fun _ => le_rfl⟩

theorem Table.Grows.trans {t u v : Table} (h : t.Grows u) (h' : u.Grows v) : t.Grows v := fun c r hr => by
  obtain ⟨r₁, hr₁, ht₁, hc₁⟩ := h c r hr
  obtain ⟨r₂, hr₂, ht₂, hc₂⟩ := h' c r₁ hr₁
  exact ⟨r₂, hr₂, ht₁.trans ht₂, fun a => (hc₁ a).trans (hc₂ a)⟩

theorem Table.Grows.put_new {t : Table} {c : Context} (r : CtxRecord) (hc : t.record? c = none) :
    t.Grows (t.put c r) := fun d r' hd => by
  have hne : c ≠ d := by rintro rfl; rw [hc] at hd; injection hd
  exact ⟨r', by rw [Table.record?_put_other t r hne, hd], le_rfl, fun _ => le_rfl⟩

theorem CtxRecord.cnt_le_bump (r : CtxRecord) (s a : Symbol) : r.cnt a ≤ (r.bump s).cnt a := by
  rw [CtxRecord.cnt_bump]; split
  · subst a; omega
  · exact le_rfl

theorem Table.Grows.put_bump {t : Table} {c : Context} {r : CtxRecord} (s : Symbol) (hc : t.record? c = some r) :
    t.Grows (t.put c (r.bump s)) := fun d r' hd => by
  by_cases h : c = d
  · subst h
    obtain rfl : r = r' := Option.some.inj (hc.symm.trans hd)
    exact ⟨_, Table.record?_put_same t c _, by simp, r.cnt_le_bump s⟩
  · exact ⟨r', by rw [Table.record?_put_other t _ h, hd], le_rfl, fun _ => le_rfl⟩

/-- What is observed at order 0 stays so. -/
theorem Table.Observed.mono {t t' : Table} {a : Symbol} (h : t.Observed a) (hg : t.Grows t') : t'.Observed a := by
  obtain ⟨r, hr, ha⟩ := h
  obtain ⟨r', hr', -, hc⟩ := hg [] r hr
  exact ⟨r', hr', ha.trans_le (hc a)⟩

namespace Machine

theorem bumpRecord_grows {b : Config.Build} {t t' : Table} {c : Context} {r : CtxRecord} {s : Symbol}
    (hr : t.record? c = some r) (h : bumpRecord b t c r s = .ok t') : t.Grows t' := by
  obtain ⟨rfl, -⟩ := bumpRecord_ok h
  exact .put_bump s hr

/-- Observe forgets nothing (R115 to R119). -/
theorem observeFrom_grows {b : Config.Build} {h : Context} {s : Symbol} {n : Nat} {t t' : Table}
    (hok : observeFrom b h s n t = .ok t') : t.Grows t' := by
  induction n generalizing t with
  | zero =>
    rcases observeFloor_ok hok with rfl | ⟨r, hr, -, h'⟩
    · exact .refl _
    · exact bumpRecord_grows hr h'
  | succ k ih =>
    rcases observeFrom_succ_ok hok with ⟨hr, -, h'⟩ | ⟨r, t₁, hr, -, h₁, h'⟩ | ⟨r, hr, -, h'⟩
    · exact (Table.Grows.put_new _ hr).trans (ih h')
    · exact (bumpRecord_grows hr h₁).trans (ih h')
    · exact bumpRecord_grows hr h'

/-- A command that starts no run forgets nothing. -/
theorem ruleOf_grows {i : Instr} {s t : State} (h : ruleOf i s = .ok t) (he : i ≠ .initEnc) (hd : i ≠ .initDec) :
    s.table.Grows t.table := by
  cases i with
  | nop => injection h with h; exact h ▸ .refl _
  | initEnc => exact absurd rfl he
  | initDec => exact absurd rfl hd
  | encSym a => exact observeFrom_grows (encSymRule_frame h).1
  | decSym => obtain ⟨a, hT, -⟩ := decSymRule_frame h; exact observeFrom_grows hT
  | finish =>
    have : t.table = s.table := by rw [finishRule_frame h]
    rw [this]; exact .refl _

/-- Settles O39: a completed command has run its rule, and Observe forgets nothing. -/
theorem countsNeverFallWithinRun : Obligations.CountsNeverFallWithinRun :=
  fun _ _ _ h he hd => ruleOf_grows (completes_rule h).2 he hd

end Machine

/-! ## Order 0 observes what any order observes -/

/-- While Observe(s) runs, with the orders below n still to visit: order 0 has observed what any record has, but for s in
the orders from n up, which the loop has written already. -/
def Table.NestedBut (s : Symbol) (n : Nat) (t : Table) : Prop :=
  ∀ e ∈ t, ∀ a, 0 < e.2.cnt a → t.Observed a ∨ (a = s ∧ n ≤ e.1.length)

theorem Table.Nested.nestedBut {t : Table} (h : t.Nested) (s : Symbol) (n : Nat) : t.NestedBut s n :=
  fun e he a ha => .inl (h e he a ha)

/-- Once order 0 has observed s itself, nothing is excepted. -/
theorem Table.NestedBut.nested {s : Symbol} {n : Nat} {t : Table} (h : t.NestedBut s n) (hs : t.Observed s) :
    t.Nested := fun e he a ha => by
  rcases h e he a ha with h' | ⟨rfl, -⟩
  · exact h'
  · exact hs

/-- One write of Observe's loop: a record of order n or more, of symbols that order 0 has observed, and s. -/
theorem Table.NestedBut.put {s : Symbol} {m n : Nat} {t : Table} (h : t.NestedBut s m) (hnm : n ≤ m) {c : Context}
    {r : CtxRecord} (hg : t.Grows (t.put c r)) (hc : n ≤ c.length)
    (hr : ∀ a, 0 < r.cnt a → a = s ∨ t.Observed a) : (t.put c r).NestedBut s n := fun e he a ha => by
  rcases Machine.Assoc.mem_insert he with rfl | he
  · rcases hr a ha with rfl | h'
    · exact .inr ⟨rfl, hc⟩
    · exact .inl (h'.mono hg)
  · rcases h e he a ha with h' | ⟨rfl, hl⟩
    · exact .inl (h'.mono hg)
    · exact .inr ⟨rfl, hnm.trans hl⟩

/-- A record that is read stands in the table. -/
theorem Table.mem_of_record? {t : Table} {c : Context} {r : CtxRecord} (h : t.record? c = some r) : (c, r) ∈ t := by
  obtain ⟨d, hd, hm⟩ := Machine.Assoc.mem_of_find? h
  rwa [contextCode_inj hd] at hm

theorem Table.NestedBut.put_fresh {s : Symbol} {k : Nat} {t : Table} {c : Context} (h : t.NestedBut s (k + 1))
    (hc : t.record? c = none) (hl : c.length = k) : (t.put c (CtxRecord.fresh s)).NestedBut s k := by
  refine h.put (Nat.le_succ k) (.put_new _ hc) hl.ge fun a ha => .inl ?_
  rw [CtxRecord.cnt_fresh] at ha
  by_contra hne
  simp [hne] at ha

theorem Table.NestedBut.put_bump {s : Symbol} {m n : Nat} {t : Table} {c : Context} {r : CtxRecord}
    (h : t.NestedBut s m) (hnm : n ≤ m) (hr : t.record? c = some r) (hl : n ≤ c.length) :
    (t.put c (r.bump s)).NestedBut s n := by
  refine h.put hnm (.put_bump s hr) hl fun a ha => ?_
  by_cases he : a = s
  · exact .inl he
  · rw [CtxRecord.cnt_bump, if_neg he] at ha
    rcases h _ (Table.mem_of_record? hr) a ha with h' | ⟨h', -⟩
    · exact .inr h'
    · exact .inl h'

/-- Writing a record of s at order 0 observes s there. -/
theorem Table.observed_put_zero (t : Table) (h : Context) {r : CtxRecord} {s : Symbol} (hr : 0 < r.cnt s) :
    (t.put (ctx h 0) r).Observed s := ⟨r, by rw [ctx_zero, Table.record?_put_same], hr⟩

theorem CtxRecord.bump_pos (r : CtxRecord) (s : Symbol) : 0 < (r.bump s).cnt s := by simp [CtxRecord.cnt_bump]

namespace Machine

/-- Observe keeps order 0 ahead: its loop goes on to lower orders until a record already holds the symbol, and such a
record is nested, or the loop has written order 0. -/
theorem observeFrom_nested {b : Config.Build} {h : Context} {s : Symbol} {n : Nat} {t t' : Table}
    (hn : n ≤ h.length + 1) (hb : t.NestedBut s n) (h0 : n = 0 → t.Observed s)
    (hok : observeFrom b h s n t = .ok t') : t'.Nested := by
  induction n generalizing t with
  | zero =>
    rcases observeFloor_ok hok with rfl | ⟨r, hr, -, h'⟩
    · exact hb.nested (h0 rfl)
    · obtain ⟨rfl, -⟩ := bumpRecord_ok h'
      exact (hb.put_bump le_rfl hr (Nat.zero_le _)).nested ((h0 rfl).mono (.put_bump s hr))
  | succ k ih =>
    have hl : (ctx h k).length = k := length_ctx (by omega)
    rcases observeFrom_succ_ok hok with ⟨hr, -, h'⟩ | ⟨r, t₁, hr, -, h₁, h'⟩ | ⟨r, hr, hs, h'⟩
    · refine ih (by omega) (hb.put_fresh hr hl) (fun hk => ?_) h'
      subst hk; exact Table.observed_put_zero t h (by simp [CtxRecord.cnt_fresh])
    · obtain ⟨rfl, -⟩ := bumpRecord_ok h₁
      refine ih (by omega) (hb.put_bump (Nat.le_succ k) hr hl.ge) (fun hk => ?_) h'
      subst hk; exact Table.observed_put_zero t h (r.bump_pos s)
    · obtain ⟨rfl, -⟩ := bumpRecord_ok h'
      have hobs : t.Observed s := by
        rcases hb _ (Table.mem_of_record? hr) s (Nat.pos_of_ne_zero hs) with h' | ⟨-, h'⟩
        · exact h'
        · exact absurd h' (by simp only [hl]; omega)
      exact (hb.put_bump (Nat.le_succ k) hr hl.ge).nested (hobs.mono (.put_bump s hr))

end Machine

end Sys2Proof
end

section
/-! PROOF. The estimator as a distribution: where some symbol is observed in none of the visited records, P sums to 1
(R107 to R113), and F accumulates P (R112). -/

namespace Sys2Proof

/-! ## Exclusion sets -/

theorem CtxRecord.Sound.mem_observed {b : Config.Build} {r : CtxRecord} (h : r.Sound b) {a : Symbol} :
    a ∈ r.observed ↔ 0 < r.cnt a := by
  simp only [CtxRecord.observed, List.mem_map, List.mem_filter, decide_eq_true_eq]
  constructor
  · rintro ⟨⟨a', n⟩, ⟨hm, hn⟩, rfl⟩
    simpa [CtxRecord.cnt, Machine.Assoc.find?_of_mem h.sorted hm] using hn
  · intro ha
    cases hf : Machine.Assoc.find? BitVec.toNat r.counts a with
    | none => simp [CtxRecord.cnt, hf] at ha
    | some n =>
      obtain ⟨a', ha', hm⟩ := Machine.Assoc.mem_of_find? hf
      obtain rfl := BitVec.eq_of_toNat_eq ha'
      exact ⟨(a', n), ⟨hm, h.positive _ hm⟩, rfl⟩

theorem CtxRecord.Sound.nodup_observed {b : Config.Build} {r : CtxRecord} (h : r.Sound b) : r.observed.Nodup := by
  refine (List.pairwise_map.mpr ?_ : (r.counts.map Prod.fst).Nodup).sublist (List.filter_sublist.map _)
  exact h.sorted.imp fun hlt he => by rw [he] at hlt; exact lt_irrefl _ hlt

/-- X grows by exactly the symbols observed (R109). -/
theorem mem_exclude {b : Config.Build} {r : CtxRecord} (h : r.Sound b) {x : List Symbol} {a : Symbol} :
    a ∈ exclude x r ↔ a ∈ x ∨ 0 < r.cnt a := by
  simp only [exclude, List.mem_append, List.mem_filter, h.mem_observed, decide_eq_true_eq]
  tauto

theorem nodup_exclude {b : Config.Build} {r : CtxRecord} (h : r.Sound b) {x : List Symbol} (hx : x.Nodup) :
    (exclude x r).Nodup := by
  refine hx.append (h.nodup_observed.filter _) fun a ha ha' => ?_
  simp only [List.mem_filter, decide_eq_true_eq] at ha'
  exact ha'.2 ha

namespace Machine

/-- The symbols that X leaves (R102). -/
def included (x : List Symbol) : Finset Symbol := alphabet.toFinset.filter (fun a => a ∉ x)

theorem mem_included {x : List Symbol} {a : Symbol} : a ∈ included x ↔ a ∉ x := by
  simp [included, mem_alphabet]

theorem sum_alphabet {M : Type} [AddCommMonoid M] (f : Symbol → M) : (alphabet.map f).sum = ∑ a ∈ included [], f a := by
  rw [← List.sum_toFinset f nodup_alphabet]
  simp [included]

theorem card_alphabet : alphabet.toFinset.card = 256 := by
  rw [List.toFinset_card_of_nodup nodup_alphabet]; simp [alphabet]

theorem included_eq_sdiff (x : List Symbol) : included x = alphabet.toFinset \ x.toFinset := by
  ext a; simp [included]

theorem toFinset_subset_alphabet (x : List Symbol) : x.toFinset ⊆ alphabet.toFinset :=
  fun a _ => by simp [mem_alphabet]

/-- X leaves 256 - |X| symbols (R107). -/
theorem card_included {x : List Symbol} (hx : x.Nodup) : (included x).card = 256 - x.length := by
  rw [included_eq_sdiff, Finset.card_sdiff_of_subset (toFinset_subset_alphabet x), card_alphabet,
    List.toFinset_card_of_nodup hx]

/-- C(rec, X) counts the symbols that X leaves (R102). -/
theorem nonExcluded_eq {b : Config.Build} {r : CtxRecord} (h : r.Sound b) {x : List Symbol} (hx : x.Nodup) :
    r.nonExcluded x = ∑ a ∈ included x, r.cnt a := by
  have split := Finset.sum_sdiff (f := r.cnt) (toFinset_subset_alphabet x)
  rw [← included_eq_sdiff, List.sum_toFinset r.cnt hx, List.sum_toFinset r.cnt nodup_alphabet] at split
  rw [CtxRecord.nonExcluded, h.total_eq]
  omega

/-! ## The mass of one pass -/

section
variable {b : Config.Build} (hb : b.probArith = .exact)
include hb

theorem roundStep_exact (x : ℚ) : roundStep b x = x := by rw [roundStep, hb]

theorem escapeStep_exact (p : ℚ) (c : Nat) : escapeStep b p c = p * (1 / (c + 1)) := by
  simp [escapeStep, escapeMass, roundStep_exact hb]

theorem resolveStep_exact (p : ℚ) (n c : Nat) : resolveStep b p n c = p * ((n / c) * (1 - 1 / (c + 1))) := by
  simp [resolveStep, escapeMass, roundStep_exact hb]

/-- The uniform fallback shares out the whole mass where X is not the whole alphabet (R107). -/
theorem sum_uniformStep (p : ℚ) {x : List Symbol} (hx : x.Nodup) {a : Symbol} (ha : a ∉ x) :
    ∑ _s ∈ included x, uniformStep b p x = p := by
  have hpos : 0 < (included x).card := Finset.card_pos.mpr ⟨a, mem_included.mpr ha⟩
  rw [Finset.sum_const, uniformStep, roundStep_exact hb, roundStep_exact hb, Config.NSYM_eq, ← card_included hx,
    nsmul_eq_mul]
  have : ((included x).card : ℚ) ≠ 0 := by exact_mod_cast hpos.ne'
  field_simp

/-- The symbols a record resolves take all of the mass but the escape mass (R110). -/
theorem sum_resolveStep (p : ℚ) {r : CtxRecord} (h : r.Sound b) {x : List Symbol} (hx : x.Nodup) :
    ∑ s ∈ (included x).filter (fun s => ¬ r.cnt s = 0), resolveStep b p (r.cnt s) (r.nonExcluded x) =
      p - escapeStep b p (r.nonExcluded x) := by
  have hcnt : ∑ s ∈ (included x).filter (fun s => ¬ r.cnt s = 0), (r.cnt s : ℚ) = r.nonExcluded x := by
    rw [nonExcluded_eq h hx, Nat.cast_sum]
    refine Finset.sum_filter_of_ne fun s _ hs hz => hs (by simp [hz])
  simp only [resolveStep_exact hb, escapeStep_exact hb]
  rw [← Finset.mul_sum, ← Finset.sum_mul, ← Finset.sum_div, hcnt]
  by_cases hC : (r.nonExcluded x : ℚ) = 0
  · simp [hC]
  · rw [div_self hC]; ring

/-- The mass p that a pass starts with goes to the symbols X leaves, all of it, where one of them is observed in none of
the records still to visit (R104, R113). -/
theorem sum_estimateFrom {l : List (Option CtxRecord)} (hl : ∀ r, some r ∈ l → r.Sound b) (p : ℚ) {x : List Symbol}
    (hx : x.Nodup) {a : Symbol} (ha : a ∉ x) (hz : ∀ r, some r ∈ l → r.cnt a = 0) :
    ∑ s ∈ included x, estimateFrom b s l p x = p := by
  induction l generalizing p x with
  | nil => exact sum_uniformStep hb p hx ha
  | cons o l ih =>
    have hl' : ∀ r, some r ∈ l → r.Sound b := fun r hr => hl r (List.mem_cons_of_mem _ hr)
    have hz' : ∀ r, some r ∈ l → r.cnt a = 0 := fun r hr => hz r (List.mem_cons_of_mem _ hr)
    cases o with
    | none => exact ih hl' p hx ha hz'
    | some r =>
      have hr : r.Sound b := hl r List.mem_cons_self
      have hescape : (included x).filter (fun s => r.cnt s = 0) = included (exclude x r) := by
        ext s; simp [mem_included, mem_exclude hr]
      have hax : a ∉ exclude x r := by
        rw [mem_exclude hr, hz r List.mem_cons_self]; simpa using ha
      have hesc : ∑ s ∈ (included x).filter (fun s => r.cnt s = 0), estimateFrom b s (some r :: l) p x =
          escapeStep b p (r.nonExcluded x) := by
        rw [← ih hl' (escapeStep b p (r.nonExcluded x)) (nodup_exclude hr hx) hax hz', ← hescape]
        refine Finset.sum_congr rfl fun s hs => ?_
        rw [estimateFrom, if_pos (Finset.mem_filter.mp hs).2]
      have hres : ∑ s ∈ (included x).filter (fun s => ¬ r.cnt s = 0), estimateFrom b s (some r :: l) p x =
          p - escapeStep b p (r.nonExcluded x) := by
        rw [← sum_resolveStep hb p hr hx]
        refine Finset.sum_congr rfl fun s hs => ?_
        rw [estimateFrom, if_neg (Finset.mem_filter.mp hs).2]
      rw [← Finset.sum_filter_add_sum_filter_not _ (fun s => r.cnt s = 0), hesc, hres]
      ring

end

/-! ## The vectors P and F -/

/-- The records that an estimation visits are the table's. -/
theorem record?_of_mem_levels {t : Table} {h : Context} {n : Nat} {r : CtxRecord} (hm : some r ∈ levels t h n) :
    ∃ k < n, t.record? (ctx h k) = some r := by
  induction n with
  | zero => simp [levels] at hm
  | succ n ih =>
    rcases List.mem_cons.mp hm with hr | hm
    · exact ⟨n, Nat.lt_succ_self n, hr.symm⟩
    · obtain ⟨k, hk, hr⟩ := ih hm; exact ⟨k, hk.trans (Nat.lt_succ_self n), hr⟩

theorem length_cumulate (b : Config.Build) (f : ℚ) (l : List ℚ) : (cumulate b f l).length = l.length + 1 := by
  induction l generalizing f with
  | nil => rfl
  | cons p l ih => simp [cumulate, ih]

/-- F[n] is the sum of the first n entries of P (R112). -/
theorem getD_cumulate {b : Config.Build} (hb : b.probArith = .exact) (f : ℚ) (l : List ℚ) {n : Nat}
    (hn : n ≤ l.length) : (cumulate b f l).getD n 0 = f + (l.take n).sum := by
  induction l generalizing f n with
  | nil => obtain rfl : n = 0 := by simpa using hn
           simp [cumulate]
  | cons p l ih =>
    cases n with
    | zero => simp [cumulate]
    | succ n =>
      rw [cumulate, List.getD_cons_succ, roundStep_exact hb, ih _ (Nat.le_of_succ_le_succ hn), List.take_succ_cons,
        List.sum_cons, add_assoc]

theorem length_alphabet : alphabet.length = 256 := by simp [alphabet]

theorem getElem_alphabet {n : Nat} (hn : n < alphabet.length) : alphabet[n] = BitVec.ofNat 8 n := by
  simp [alphabet]

section
variable {b : Config.Build} (t : Table) (h : Context)

theorem length_estimate_P : (estimate b t h).P.length = 256 := by simp [estimate, length_alphabet]

theorem length_estimate_F : (estimate b t h).F.length = 257 := by simp [estimate, length_cumulate, length_alphabet]

/-- P[s] is EstimateOne(s) (R112). -/
theorem estimate_p (a : Symbol) : (estimate b t h).p a = estimateOne b t h a := by
  have ha : a.toNat < alphabet.length := by rw [length_alphabet]; exact a.isLt
  simp [Estimate.p, estimate, estimateOne, List.getD, List.getElem?_map, List.getElem?_eq_getElem ha, getElem_alphabet]

theorem estimate_f_zero : (estimate b t h).f 0 = 0 := by
  cases hP : alphabet.map (fun s => estimateFrom b s (levels t h (h.length + 1)) 1 []) <;>
    simp [Estimate.f, estimate, hP, cumulate]

variable (hb : b.probArith = .exact)
include hb

theorem estimate_f {n : Nat} (hn : n ≤ 256) : (estimate b t h).f n = ((estimate b t h).P.take n).sum := by
  have := getD_cumulate hb 0 (estimate b t h).P (hn.trans_eq (length_estimate_P t h).symm)
  rwa [zero_add] at this

/-- `F[s+1] = F[s] + P[s]` (R112). -/
theorem estimate_f_succ (a : Symbol) :
    (estimate b t h).f (a.toNat + 1) = (estimate b t h).f a.toNat + (estimate b t h).p a := by
  have ha : a.toNat < 256 := a.isLt
  have hl : a.toNat < (estimate b t h).P.length := by rw [length_estimate_P]; exact ha
  rw [estimate_f t h hb ha, estimate_f t h hb ha.le, List.take_succ_eq_append_getElem hl, List.sum_append,
    List.sum_singleton, Estimate.p, List.getD_eq_getElem _ _ hl]

/-- F[256] = 1 where some symbol is observed in none of the visited records (R113). -/
theorem estimate_f_last {w : Nat} (ht : t.Sound b w) {a : Symbol}
    (hz : ∀ k ≤ h.length, ∀ r, t.record? (ctx h k) = some r → r.cnt a = 0) : (estimate b t h).f 256 = 1 := by
  have hv {r : CtxRecord} (hr : some r ∈ levels t h (h.length + 1)) :
      ∃ k ≤ h.length, t.record? (ctx h k) = some r := by
    obtain ⟨k, hk, hr⟩ := record?_of_mem_levels hr; exact ⟨k, Nat.le_of_lt_succ hk, hr⟩
  rw [estimate_f t h hb le_rfl, List.take_of_length_le (length_estimate_P t h).le]
  show (alphabet.map (fun s => estimateFrom b s (levels t h (h.length + 1)) 1 [])).sum = 1
  rw [sum_alphabet]
  refine sum_estimateFrom hb (fun r hr => ?_) 1 List.nodup_nil (List.not_mem_nil (a := a)) fun r hr => ?_
  · obtain ⟨k, -, hr⟩ := hv hr; exact ht.of_record? hr
  · obtain ⟨k, hk, hr⟩ := hv hr; exact hz k hk r hr

end

end Machine

end Sys2Proof
end

section
/-! PROOF. The codec's part of the invariant: Locate and Narrow keep VALUE in the interval (R137, R138), emitting stays in
OBUF (R145), and the renormalizers stop on a settled interval with VALUE and CURSOR in bounds (R144, R146, R147). -/

namespace Sys2Proof.Machine

/-! ## Locate -/

/-- The search finds the last: an entry past the one it returns is above x. -/
theorem lt_of_lastAtMost_lt {x : ℚ} {l : List ℚ} {i best j : Nat} {f : ℚ} (hj : l[j]? = some f)
    (h : lastAtMost x l i best < i + j) : x < f := by
  induction l generalizing i best j with
  | nil => simp at hj
  | cons g l ih =>
    cases j with
    | zero =>
      obtain rfl : g = f := by simpa using hj
      by_contra hle
      rw [lastAtMost, if_pos (not_lt.mp hle)] at h
      rcases lastAtMost_spec x l (i + 1) i with h' | ⟨h', -⟩ <;> omega
    | succ j =>
      rw [lastAtMost] at h
      exact ih (by simpa using hj) (h.trans_eq (by omega))

/-- Locate's symbol is the last whose F is at most x (R137). -/
theorem locate_bucket {b : Config.Build} {t : Table} {h : Context} {s : State} {a : Symbol}
    (hl : locate b (estimate b t h) s = .ok a) (hx : 0 ≤ scaledValue b s) :
    (estimate b t h).f a.toNat ≤ scaledValue b s ∧
      ∀ n, a.toNat < n → n < 256 → scaledValue b s < (estimate b t h).f n := by
  obtain ⟨-, ha⟩ := locate_ok hl
  rw [Config.NSYM_eq] at ha
  set F := (estimate b t h).F with hF
  set k := lastAtMost (scaledValue b s) (F.take 256) 0 0 with hk
  have hlen : F.length = 257 := length_estimate_F t h
  have get (n : Nat) (hn : n < 256) : (F.take 256)[n]? = some ((estimate b t h).f n) := by
    rw [List.getElem?_take_of_lt hn, Estimate.f, ← hF, List.getD_eq_getElem _ _ (by omega),
      List.getElem?_eq_getElem (by omega)]
  have hk256 : k < 256 ∧ (estimate b t h).f k ≤ scaledValue b s := by
    rcases lastAtMost_spec (scaledValue b s) (F.take 256) 0 0 with h0 | ⟨-, f, hf, hfx⟩
    · rw [← hk] at h0; rw [h0, estimate_f_zero]; exact ⟨by omega, hx⟩
    · rw [← hk, Nat.sub_zero] at hf
      obtain ⟨hlt, -⟩ := List.getElem?_eq_some_iff.mp hf
      rw [List.length_take] at hlt
      have hlt : k < 256 := by omega
      rw [get k hlt, Option.some.injEq] at hf
      exact ⟨hlt, hf ▸ hfx⟩
  have hak : a.toNat = k := by rw [ha, BitVec.toNat_ofNat, Nat.mod_eq_of_lt hk256.1]
  rw [hak]
  exact ⟨hk256.2, fun n hkn hn => lt_of_lastAtMost_lt (get n hn) (by rw [← hk]; omega)⟩

/-! ## Narrow -/

section
variable {e : Estimate} {a : Symbol} {s : State}

theorem range_pos (h : s.lo.toNat ≤ s.hi.toNat) : 0 < s.range := by unfold State.range; omega

theorem narrowedLo_build : narrowedLo Config.build e a s = s.lo.toNat + ⌈(s.range : ℚ) * e.f a.toNat⌉₊ := rfl

theorem narrowedHi_build :
    narrowedHi Config.build e a s = narrowedLo Config.build e a s + ⌊(s.range : ℚ) * e.p a⌋₊ := rfl

theorem scaledValue_build : scaledValue Config.build s = (s.value.toNat - s.lo.toNat : Nat) / (s.range : ℚ) := rfl

theorem scaledValue_nonneg : 0 ≤ scaledValue Config.build s := by rw [scaledValue_build]; positivity

/-- VALUE in the interval scales to less than 1. -/
theorem scaledValue_lt_one (h : s.lo.toNat ≤ s.hi.toNat) (hv : s.value.toNat ≤ s.hi.toNat) :
    scaledValue Config.build s < 1 := by
  have hr : (0 : ℚ) < s.range := by exact_mod_cast range_pos h
  rw [scaledValue_build, div_lt_one hr]
  have : s.value.toNat - s.lo.toNat < s.range := by unfold State.range; omega
  exact_mod_cast this

/-- The new LO is at most VALUE where F[a] ≤ x (R138). -/
theorem narrowedLo_le_value (h : s.lo.toNat ≤ s.hi.toNat) (hv : s.lo.toNat ≤ s.value.toNat)
    (hf : e.f a.toNat ≤ scaledValue Config.build s) : narrowedLo Config.build e a s ≤ s.value.toNat := by
  have hr : (0 : ℚ) < s.range := by exact_mod_cast range_pos h
  have hceil : ⌈(s.range : ℚ) * e.f a.toNat⌉₊ ≤ s.value.toNat - s.lo.toNat := by
    rw [Nat.ceil_le, mul_comm, ← le_div_iff₀ hr]; exact hf
  rw [narrowedLo_build]; omega

/-- VALUE is at most the new HI where x < F[a] + P[a] (R138). -/
theorem value_le_narrowedHi (h : s.lo.toNat ≤ s.hi.toNat)
    (hf : scaledValue Config.build s < e.f a.toNat + e.p a) : s.value.toNat ≤ narrowedHi Config.build e a s := by
  have hr : (0 : ℚ) < s.range := by exact_mod_cast range_pos h
  rw [scaledValue_build, div_lt_iff₀ hr] at hf
  have hceil := Nat.le_ceil ((s.range : ℚ) * e.f a.toNat)
  have hfloor : s.value.toNat - s.lo.toNat - ⌈(s.range : ℚ) * e.f a.toNat⌉₊ ≤ ⌊(s.range : ℚ) * e.p a⌋₊ := by
    rcases Nat.le_total (s.value.toNat - s.lo.toNat) ⌈(s.range : ℚ) * e.f a.toNat⌉₊ with hc | hc
    · omega
    · refine Nat.le_floor ?_
      rw [Nat.cast_sub hc]; linarith
  rw [narrowedHi_build, narrowedLo_build]; omega

end

/-- A symbol that a nested table has not observed at order 0 is in none of the visited records. -/
theorem cnt_eq_zero_of_not_observed {t : Table} {a : Symbol} (hn : t.Nested) (ha : ¬ t.Observed a) {c : Context}
    {r : CtxRecord} (hr : t.record? c = some r) : r.cnt a = 0 := by
  by_contra h
  exact ha (hn _ (Table.mem_of_record? hr) a (Nat.pos_of_ne_zero h))

/-- Narrowing to the located symbol keeps LO at most VALUE, and keeps VALUE at most HI as long as order 0 has not observed
all symbols (R138, R39(e)). -/
theorem located_in_narrowed {s : State} {a : Symbol} {w : Nat} (ht : s.table.Sound Config.build w)
    (hn : s.table.Nested) (h : s.lo.toNat ≤ s.hi.toNat)
    (hl : locate Config.build (estimate Config.build s.table s.hist) s = .ok a) :
    narrowedLo Config.build (estimate Config.build s.table s.hist) a s ≤ s.value.toNat ∧
    ((∃ c, ¬ s.table.Observed c) → s.value.toNat ≤ s.hi.toNat →
      s.value.toNat ≤ narrowedHi Config.build (estimate Config.build s.table s.hist) a s) := by
  obtain ⟨hf, hlast⟩ := locate_bucket hl scaledValue_nonneg
  refine ⟨narrowedLo_le_value h (locate_ok hl).1 hf, fun ⟨c, hc⟩ hv => value_le_narrowedHi h ?_⟩
  rw [← estimate_f_succ s.table s.hist rfl a]
  by_cases ha : a.toNat + 1 < 256
  · exact hlast _ (Nat.lt_succ_self _) ha
  · have : a.toNat + 1 = 256 := by have := a.isLt; omega
    rw [this, estimate_f_last s.table s.hist rfl ht fun k _ r hr => cnt_eq_zero_of_not_observed hn hc hr]
    exact scaledValue_lt_one h hv

/-! ## Emitting -/

/-- OBUF is canonical and OUT_LEN is within it. -/
structure State.OutputSound (s : State) : Prop where
  obuf   : Memory.Sound obufBase s.obuf
  outLen : s.outLen.toNat ≤ 524288

section
variable {s t : State} {v : Bool}

theorem emit_outputSound (hs : s.OutputSound) (h : emit Config.build v s = .ok t) : t.OutputSound := by
  obtain ⟨hne, rfl⟩ := emit_ok h
  rw [Config.build_obufBits] at hne
  have hlt : s.outLen.toNat < 524288 := lt_of_le_of_ne hs.outLen hne
  constructor
  · rw [State.setOutLen_obuf, State.putObit_obuf]
    exact hs.obuf.put _ (by unfold streamByte; omega) (by unfold streamByte; omega)
  · rw [State.setOutLen_outLen, BitVec.toNat_ofNat]
    omega

theorem emitMany_outputSound {n : Nat} (hs : s.OutputSound) (h : emitMany Config.build v n s = .ok t) :
    t.OutputSound := by
  induction n generalizing s with
  | zero => injection h with h; exact h ▸ hs
  | succ n ih =>
    obtain ⟨u, h₁, h₂⟩ := emitMany_succ_ok h
    exact ih (emit_outputSound hs h₁) h₂

theorem emitOwed_outputSound (hs : s.OutputSound) (h : emitOwed Config.build v s = .ok t) : t.OutputSound := by
  obtain ⟨u, h₁, h₂⟩ := emitOwed_ok h
  exact emitMany_outputSound (emit_outputSound hs h₁) h₂

theorem straddleInc_outputSound (hs : s.OutputSound) (h : straddleInc Config.build s = .ok t) : t.OutputSound := by
  obtain ⟨-, rfl⟩ := straddleInc_ok h
  exact ⟨hs.obuf, hs.outLen⟩

theorem caseEmit_outputSound {c : RenormCase} (hs : s.OutputSound) (h : caseEmit Config.build c s = .ok t) :
    t.OutputSound := by
  rcases caseEmit_ok h with ⟨-, u, h₁, rfl⟩ | ⟨-, u, h₁, rfl⟩ | ⟨-, h₁⟩
  · exact ⟨(emitOwed_outputSound hs h₁).obuf, (emitOwed_outputSound hs h₁).outLen⟩
  · exact ⟨(emitOwed_outputSound hs h₁).obuf, (emitOwed_outputSound hs h₁).outLen⟩
  · exact straddleInc_outputSound hs h₁

theorem renormEncPass_outputSound {c : RenormCase} (hs : s.OutputSound)
    (h : renormEncPass Config.build c s = .ok t) : t.OutputSound := by
  obtain ⟨u, h₁, h₂⟩ := renormEncPass_ok h
  obtain ⟨-, -, rfl⟩ := stretchEnc_ok h₂
  have hu := caseEmit_outputSound hs h₁
  exact ⟨hu.obuf, hu.outLen⟩

theorem flush_outputSound (hs : s.OutputSound) (h : flush Config.build s = .ok t) : t.OutputSound := by
  obtain ⟨u, h₁, h₂⟩ := flush_ok h
  exact emitOwed_outputSound (straddleInc_outputSound hs h₁) h₂

end

/-! ## The renormalizers -/

/-- What every pass of RenormEnc keeps, RenormEnc keeps, and it stops where no case of R139 holds. -/
theorem renormEncLoop_induction {b : Config.Build} {P : State → Prop}
    (pass : ∀ {s t c}, P s → renormEncPass b c s = .ok t → P t) {n : Nat} {s t : State} (hs : P s)
    (h : renormEncLoop b n s = .ok t) : P t ∧ renormCase t.lo.toNat t.hi.toNat = none := by
  induction n generalizing s with
  | zero => injection h
  | succ n ih =>
    rcases renormEncLoop_succ_ok h with ⟨hc, rfl⟩ | ⟨c, u, -, hp, hl⟩
    · exact ⟨hs, hc⟩
    · exact ih (pass hs hp) hl

/-- What every pass of RenormDec keeps, RenormDec keeps, and it stops where no case of R139 holds. -/
theorem renormDecLoop_induction {b : Config.Build} {P : State → Prop}
    (pass : ∀ {s t c}, P s → renormCase s.lo.toNat s.hi.toNat = some c → stretchDec b c.offset s = .ok t → P t)
    {n : Nat} {s t : State} (hs : P s) (h : renormDecLoop b n s = .ok t) :
    P t ∧ renormCase t.lo.toNat t.hi.toNat = none := by
  induction n generalizing s with
  | zero => injection h
  | succ n ih =>
    rcases renormDecLoop_succ_ok h with ⟨hc, rfl⟩ | ⟨c, u, hc, hp, hl⟩
    · exact ⟨hs, hc⟩
    · exact ih (pass hs hc hp) hl

/-- The loops stop exactly on a settled interval (R144). -/
theorem settled_iff {l h : Nat} : Settled l h ↔ renormCase l h = none := by
  rw [renormCase_none]
  simp only [Settled, Config.HALF_eq, Config.QUARTER_eq, Config.THREEQUARTERS_eq]

/-- A settled interval is not empty and has a range of QUARTER + 2 or more (R39(f), R144). -/
theorem Settled.lt {l h : Nat} (hs : Settled l h) : l < h ∧ 1073741824 + 2 ≤ h + 1 - l := by
  simp only [Settled, Config.HALF_eq, Config.QUARTER_eq, Config.THREEQUARTERS_eq] at hs
  omega

/-- A completed RenormEnc leaves a settled interval and a sound output. -/
theorem renormEnc_settled {s t : State} (hs : s.OutputSound) (h : renormEnc Config.build s = .ok t) :
    t.OutputSound ∧ Settled t.lo.toNat t.hi.toNat := by
  obtain ⟨ht, hc⟩ := renormEncLoop_induction renormEncPass_outputSound hs h
  exact ⟨ht, settled_iff.mpr hc⟩

/-- Where a decode run stands in its stream and its interval; `inside` says that VALUE is at most HI (R39(e), R147). -/
structure State.DecodeBounds (inside : Prop) (s : State) : Prop where
  cursor_ge : 32 ≤ s.cursor.toNat
  cursor_le : s.cursor.toNat ≤ s.runLen.toNat + 32
  lo_le     : s.lo.toNat ≤ s.value.toNat
  le_hi     : inside → s.value.toNat ≤ s.hi.toNat

/-- One stretch of the decoder: LO, VALUE and HI move together, and CURSOR by one (R143, R146). -/
theorem stretchDec_decodeBounds {inside : Prop} {s t : State} {c : RenormCase} (hs : s.DecodeBounds inside)
    (hc : renormCase s.lo.toNat s.hi.toNat = some c) (h : stretchDec Config.build c.offset s = .ok t) :
    t.DecodeBounds inside := by
  obtain ⟨v, u, hu, hl, hh, hv, rfl⟩ := stretchDec_ok h
  obtain ⟨hcur, rfl, -⟩ := absorb_ok hu
  rw [Config.PREC_eq] at hcur
  have hoff := offset_le hc
  have hbit : v.toNat ≤ 1 := Bool.toNat_le v
  have hlo := hs.lo_le
  have hnext : (BitVec.ofNat 32 (s.cursor.toNat + 1)).toNat = s.cursor.toNat + 1 := by
    rw [BitVec.toNat_ofNat, Nat.mod_eq_of_lt]
    have := s.runLen.isLt; omega
  constructor
  · have := hs.cursor_ge
    simp only [State.setValue_cursor, State.setInterval_cursor, State.setCursor_cursor, hnext]; omega
  · simp only [State.setValue_cursor, State.setInterval_cursor, State.setCursor_cursor, hnext, State.setValue_runLen,
      State.setInterval_runLen, State.setCursor_runLen]; omega
  · simp only [State.setValue_lo, State.setInterval_lo, State.setValue_value, toNat_ofNat_reg hl, toNat_ofNat_reg hv]
    omega
  · intro hin
    have hle := hs.le_hi hin
    simp only [State.setValue_hi, State.setInterval_hi, State.setValue_value, toNat_ofNat_reg hh, toNat_ofNat_reg hv]
    omega

/-- A completed RenormDec leaves a settled interval, with VALUE and CURSOR in bounds. -/
theorem renormDec_settled {inside : Prop} {s t : State} (hs : s.DecodeBounds inside)
    (h : renormDec Config.build s = .ok t) : t.DecodeBounds inside ∧ Settled t.lo.toNat t.hi.toNat := by
  obtain ⟨ht, hc⟩ := renormDecLoop_induction stretchDec_decodeBounds hs h
  exact ⟨ht, settled_iff.mpr hc⟩

end Sys2Proof.Machine
end

section
/-! PROOF. The invariant: it holds at reset, and every fault, every start of a run, every completed command and every host
move keeps it. -/

namespace Sys2Proof.Machine

/-! ## Reset and faults -/

/-- IDLE with R46's values is sound, whatever its buffers list. -/
theorem assertReset_inv (s : State) : s.assertReset.Inv where
  ibuf := Memory.sound_nil _
  obuf := Memory.sound_nil _
  fault := by simp
  symValid := by simp
  live _ := {
    runW := by simp
    table := Table.Sound.nil _ _
    nested := fun e he => by simp at he
    fits := fun n _ => by simp
    hist := by simp
    runLen := by simp
    outLen := by simp
    sym := fun _ => rfl
    encode := fun _ => ⟨rfl, rfl, rfl, rfl⟩
    decode := fun h => by simp at h
    idle := fun _ => ⟨rfl, rfl, rfl, rfl, rfl⟩
    settled := fun h => by simp [State.running] at h
    value := fun h => by simp [State.running] at h }

/-- What the invariant reads: it does not read PEND, SYMCOUNT, CONFIG, IN_LEN, and of the model's own fields none. -/
theorem State.Inv.of_unread {s t : State} (h : s.Inv)
    (ht : t = { s with pend := t.pend, symCount := t.symCount, maxord := t.maxord, inLen := t.inLen, ibuf := t.ibuf,
                       readData := t.readData, ibufDraw := t.ibufDraw, obufDraw := t.obufDraw, draws := t.draws,
                       agenda := t.agenda })
    (hi : Memory.Sound ibufBase t.ibuf) : t.Inv := by
  rw [ht]
  exact ⟨hi, h.obuf, h.fault, h.symValid, fun hf => { h.live hf with }⟩

/-- Settles O10: reset is an asserted RESET, but for what the invariant does not read. -/
theorem invariantHoldsAtReset : Obligations.InvariantHoldsAtReset :=
  (assertReset_inv State.reset).of_unread rfl (Memory.sound_nil _)

/-- A raised fault is sound: FAULTED asks for little (R32, R216). -/
theorem State.Inv.raise {s : State} (h : s.Inv) {c : FaultCode} (hc : c ≠ .noFault) : (s.raise c).Inv where
  ibuf := h.ibuf
  obuf := Memory.sound_nil _
  fault := by simp [hc]
  symValid := by simp
  live hf := absurd rfl hf

theorem State.Inv.raiseHost {s : State} (h : s.Inv) {c : FaultCode} (hc : c ≠ .noFault) : (s.raiseHost c).Inv := by
  refine h.raise ?_
  split
  · rw [ne_eq, h.fault]; simpa
  · exact hc

/-! ## Starting a run -/

theorem foldInput_lt (s : State) (len n : Nat) : foldInput s len n < 2 ^ n := by
  induction n with
  | zero => simp [foldInput]
  | succ n ih =>
    have := Bool.toNat_le (if n < len then s.ibit n else false)
    rw [foldInput, pow_succ]; omega

/-- LoadValue loads PREC bits (R149). -/
theorem loadedValue_le (s : State) (len : Nat) : loadedValue s len ≤ 4294967295 :=
  Nat.le_of_lt_succ (foldInput_lt s len 32)

/-- A started run is sound, given what R174 and R149 load, or nothing (R173). -/
theorem startRun_inv {s : State} (h : s.Inv) (hc : s.configOk = true) {m : Mode} {v k : Nat} {n : BitVec 20}
    (hv : v ≤ 4294967295) (hn : n.toNat ≤ 524288) (he : m = .encode → v = 0 ∧ k = 0 ∧ n = 0)
    (hd : m = .decode → k = 32) : (s.startRun m v k n).Inv where
  ibuf := h.ibuf
  obuf := h.obuf
  fault := by simp
  symValid := by simp
  live _ := {
    runW := by simpa [State.configOk] using hc
    table := Table.Sound.nil _ _
    nested := fun e he => by simp at he
    fits := fun n _ => by simp
    hist := by simp
    runLen := hn
    outLen := by simp
    sym := fun _ => rfl
    encode := fun hm => by obtain ⟨rfl, rfl, rfl⟩ := he hm; exact ⟨rfl, rfl, rfl, rfl⟩
    decode := fun hm => by obtain rfl := hd hm; simp
    idle := fun hi => by simp at hi
    settled := fun _ => by simp [Settled]
    value := fun _ _ => by
      have : v % 18446744073709551616 = v := Nat.mod_eq_of_lt (by omega)
      simp [this, hv] }

theorem initEncRule_inv {s t : State} (h : s.Inv) (hr : initEncRule s = .ok t) : t.Inv := by
  obtain ⟨hc, rfl⟩ := initEncRule_ok hr
  exact startRun_inv h hc (by omega) (by simp) (fun _ => ⟨rfl, rfl, rfl⟩) (fun hm => by simp at hm)

theorem initDecRule_inv {s t : State} (h : s.Inv) (hr : initDecRule Config.build s = .ok t) : t.Inv := by
  obtain ⟨hn, hc, rfl⟩ := initDecRule_ok hr
  exact startRun_inv h hc (loadedValue_le _ _) hn (fun hm => by simp at hm) (fun _ => rfl)

/-! ## The symbol commands -/

/-- What Observe makes of a live state's T and H keeps the invariant of the context model. -/
structure ModelSound (w : Nat) (t : Table) (h : Context) : Prop where
  table  : t.Sound Config.build w
  nested : t.Nested
  fits   : t.Fits Config.build
  hist   : h.length ≤ w

theorem observe_modelSound {s : State} (hl : s.Live) {a : Symbol} {t : Table}
    (h : observeFrom Config.build s.hist a (s.hist.length + 1) s.table = .ok t) :
    ModelSound s.runW.toNat t (slide s.runW.toNat s.hist a) where
  table := Sound.observeFrom (by simp) hl.hist hl.table h
  nested := observeFrom_nested le_rfl (hl.nested.nestedBut a _) (fun h0 => by omega) h
  fits := Fits.observeFrom (by simp) hl.hist hl.table hl.fits h
  hist := length_slide a (by have := hl.runW; omega) hl.hist

theorem encSymRule_inv {s t : State} {a : Symbol} (h : s.Inv) (ha : s.runState = .active) (hm : s.mode = .encode)
    (hr : encSymRule Config.build a s = .ok t) : t.Inv := by
  have hf : s.runState ≠ .faulted := by rw [ha]; decide
  have hl := h.live hf
  obtain ⟨hT, ht⟩ := encSymRule_frame hr
  have hmod := observe_modelSound hl hT
  have hout : t.OutputSound ∧ Settled t.lo.toNat t.hi.toNat := by
    obtain ⟨u, v, hc, hv, rfl⟩ := encSymRule_ok hr
    obtain ⟨-, -, hu⟩ := codeSymbol_frame hc
    have hs : u.OutputSound := by rw [hu]; exact ⟨h.obuf, hl.outLen⟩
    obtain ⟨ho, hset⟩ := renormEnc_settled hs hv
    exact ⟨⟨ho.obuf, ho.outLen⟩, hset⟩
  have hne : s.mode ≠ .decode := by rw [hm]; decide
  rw [ht]
  exact {
    ibuf := h.ibuf
    obuf := hout.1.obuf
    fault := h.fault
    symValid := h.symValid
    live := fun _ => {
      runW := hl.runW
      table := hmod.table
      nested := hmod.nested
      fits := hmod.fits
      hist := hmod.hist
      runLen := hl.runLen
      outLen := hout.1.outLen
      sym := hl.sym
      encode := hl.encode
      decode := fun hd => absurd hd hne
      idle := fun hi => absurd (ha.symm.trans hi) (by decide)
      settled := fun _ => hout.2
      value := fun _ hd => absurd hd hne } }

/-- DEC_SYM leaves VALUE and CURSOR in bounds: VALUE at most HI until order 0 has observed all symbols (R39(e)). -/
theorem decSymRule_decodeBounds {s t : State} (hl : s.Live) (ha : s.runState = .active) (hm : s.mode = .decode)
    (hr : decSymRule Config.build s = .ok t) :
    t.DecodeBounds (∃ c, ¬ t.table.Observed c) ∧ Settled t.lo.toNat t.hi.toNat := by
  obtain ⟨a, u, v, hloc, hc, hv, rfl⟩ := decSymRule_ok hr
  obtain ⟨hn, hT, hu⟩ := codeSymbol_frame hc
  obtain ⟨-, hlo, hhi, -, -⟩ := narrow_ok hn
  obtain ⟨-, -, hcur₁, hcur₂⟩ := hl.decode hm
  obtain ⟨-, hval⟩ := hl.value (.inl ha) hm
  have hle : s.lo.toNat ≤ s.hi.toNat := (hl.settled (.inl ha)).lt.1.le
  obtain ⟨hin₁, hin₂⟩ := located_in_narrowed hl.table hl.nested hle hloc
  have hobs : (∃ c, ¬ u.table.Observed c) → ∃ c, ¬ s.table.Observed c :=
    fun ⟨c, hc⟩ => ⟨c, fun h => hc (h.mono (observeFrom_grows hT))⟩
  have hub : u.DecodeBounds (∃ c, ¬ u.table.Observed c) := by
    generalize u.table = T at hu hobs
    subst hu
    constructor
    · exact hcur₁
    · exact hcur₂
    · simpa [toNat_ofNat_reg hlo] using hin₁
    · intro h
      simpa [toNat_ofNat_reg hhi] using hin₂ (hobs h) (hval (hobs h))
  have hvT : v.table = u.table := by rw [renormDecLoop_frame hv]
  obtain ⟨hvb, hset⟩ := renormDec_settled hub hv
  rw [← hvT] at hvb
  exact ⟨⟨hvb.cursor_ge, hvb.cursor_le, hvb.lo_le, hvb.le_hi⟩, hset⟩

theorem decSymRule_inv {s t : State} (h : s.Inv) (ha : s.runState = .active) (hm : s.mode = .decode)
    (hr : decSymRule Config.build s = .ok t) : t.Inv := by
  have hf : s.runState ≠ .faulted := by rw [ha]; decide
  have hl := h.live hf
  obtain ⟨a, hT, ht⟩ := decSymRule_frame hr
  have hmod := observe_modelSound hl hT
  obtain ⟨hb, hset⟩ := decSymRule_decodeBounds hl ha hm hr
  have hrun : t.runLen = s.runLen := by rw [ht]
  obtain ⟨hstr, hout, -, -⟩ := hl.decode hm
  have hcur := hb.cursor_le
  rw [hrun] at hcur
  rw [ht]
  exact {
    ibuf := h.ibuf
    obuf := h.obuf
    fault := h.fault
    symValid := fun hi => absurd hi hf
    live := fun _ => {
      runW := hl.runW
      table := hmod.table
      nested := hmod.nested
      fits := hmod.fits
      hist := hmod.hist
      runLen := hl.runLen
      outLen := hl.outLen
      sym := fun hv => by simp at hv
      encode := fun he => absurd (hm.symm.trans he) (by decide)
      decode := fun _ => ⟨hstr, hout, hb.cursor_ge, hcur⟩
      idle := fun hi => absurd (ha.symm.trans hi) (by decide)
      settled := fun _ => hset
      value := fun _ _ => ⟨hb.lo_le, hb.le_hi⟩ } }

/-! ## FINISH -/

theorem finishRule_inv {s t : State} (h : s.Inv) (ha : s.runState = .active)
    (hr : finishRule Config.build s = .ok t) : t.Inv := by
  have hf : s.runState ≠ .faulted := by rw [ha]; decide
  have hl := h.live hf
  have ht := finishRule_frame hr
  have hout : t.OutputSound ∧ (s.mode = .decode → t.straddle = s.straddle ∧ t.outLen = s.outLen) := by
    rcases finishRule_ok hr with ⟨-, rfl⟩ | ⟨hm, u, hu, rfl⟩
    · exact ⟨⟨h.obuf, hl.outLen⟩, fun _ => ⟨rfl, rfl⟩⟩
    · have := flush_outputSound ⟨h.obuf, hl.outLen⟩ hu
      exact ⟨⟨this.obuf, this.outLen⟩, fun hd => absurd (hm.symm.trans hd) (by decide)⟩
  obtain ⟨hout, hdec⟩ := hout
  rw [ht]
  exact {
    ibuf := h.ibuf
    obuf := hout.obuf
    fault := ⟨fun _ => by simp, fun _ => h.fault.mpr hf⟩
    symValid := fun hi => by simp at hi
    live := fun _ => {
      runW := hl.runW
      table := hl.table
      nested := hl.nested
      fits := hl.fits
      hist := hl.hist
      runLen := hl.runLen
      outLen := hout.outLen
      sym := hl.sym
      encode := hl.encode
      decode := fun hm => by
        obtain ⟨h₁, h₂⟩ := hl.decode hm
        obtain ⟨h₃, h₄⟩ := hdec hm
        exact ⟨h₃.trans h₁, h₄.trans h₂.1, h₂.2⟩
      idle := fun hi => by simp at hi
      settled := fun _ => hl.settled (.inl ha)
      value := fun _ hm => hl.value (.inl ha) hm } }

/-! ## Every step -/

/-- Every command that R171 allows keeps the invariant. -/
theorem ruleOf_inv {i : Instr} {s t : State} (h : s.Inv) (hl : legality i s.runState s.mode = .ok)
    (hr : ruleOf i s = .ok t) : t.Inv := by
  cases i with
  | nop => injection hr with hr; exact hr ▸ h
  | initEnc => exact initEncRule_inv h hr
  | initDec => exact initDecRule_inv h hr
  | encSym a => exact encSymRule_inv h (legality_encSym hl).1 (legality_encSym hl).2 hr
  | decSym => exact decSymRule_inv h (legality_decSym hl).1 (legality_decSym hl).2 hr
  | finish => exact finishRule_inv h (legality_finish hl) hr

theorem coreStep_inv {s t : State} (h : s.Inv) (hs : coreStep s = .next t) : t.Inv := by
  rcases coreStep_cases hs with rfl | ⟨c, hc, rfl⟩ | ⟨w, i, u, -, -, hl, hr, rfl⟩
  · exact h.of_unread rfl h.ibuf
  · exact h.raise hc
  · have hu := ruleOf_inv h hl hr
    exact hu.of_unread rfl hu.ibuf

theorem hostMove_inv {m : HostMove} {s : State} (h : s.Inv) : (hostMove m s).Inv := by
  rcases hostMove_cases m s with ⟨-, he⟩ | ⟨c, hc, he⟩ | he
  · rw [he]; exact assertReset_inv s
  · have hr := h.raiseHost hc
    exact hr.of_unread (by rw [he]) (by rw [he]; exact hr.ibuf)
  · exact h.of_unread (by rw [he.eq]) (he.ibuf h.ibuf)

/-- Settles O11: the core's turn and the host's moves each keep the invariant. -/
theorem stepKeepsInvariant : Obligations.StepKeepsInvariant := by
  intro s t h hs
  have hset (l : List Event) : (s.setAgenda l).Inv := h.of_unread rfl h.ibuf
  rcases step_cases hs with ⟨l, hc⟩ | ⟨m, l, -, rfl⟩
  · exact coreStep_inv (hset l) hc
  · exact hostMove_inv (hset l)

/-- Settles O12: the invariant's settled interval. -/
theorem settledRangeIsLarge : Obligations.SettledRangeIsLarge := by
  intro s h hr
  have hf : s.runState ≠ .faulted := by rcases hr with hr | hr <;> rw [hr] <;> decide
  exact ((h.live hf).settled hr).lt

end Sys2Proof.Machine
end

section
/-! PROOF. The obligations on the layout of the bit streams in the buffers' words, and on the host's accesses while
BUSY = 1. -/

namespace Sys2Proof.Machine

/-! ## Stream bits in words -/

/-- A word made of four successive bytes, the first one on top: its bit k, counted from the most significant one, is bit
k mod 8, counted likewise, of byte k / 8 (R54). -/
theorem getLsbD_append_bytes (f : Nat → Byte) (a : Nat) {k : Nat} (hk : k < 32) :
    (f a ++ f (a + 1) ++ f (a + 2) ++ f (a + 3)).getLsbD (31 - k) = (f (a + k / 8)).getLsbD (7 - k % 8) := by
  simp only [BitVec.getLsbD_append]
  have hbyte : k / 8 = 0 ∨ k / 8 = 1 ∨ k / 8 = 2 ∨ k / 8 = 3 := by omega
  rcases hbyte with h | h | h | h <;> rw [h]
  · have hplace : 31 - k - 8 - 8 - 8 = 7 - k % 8 := by omega
    simp (disch := omega) only [if_neg, hplace, Nat.add_zero]
  · have hplace : 31 - k - 8 - 8 = 7 - k % 8 := by omega
    simp (disch := omega) only [if_neg, if_pos, hplace]
  · have hplace : 31 - k - 8 = 7 - k % 8 := by omega
    simp (disch := omega) only [if_neg, if_pos, hplace]
  · have hplace : 31 - k = 7 - k % 8 := by omega
    simp (disch := omega) only [if_pos, hplace]

/-- Stream bit i stands in byte (i mod 32) / 8 of its buffer's word i / 32. -/
theorem streamByte_eq_word_add (base i : Nat) : streamByte base i = base + 4 * (i / 32) + i % 32 / 8 := by
  unfold streamByte; omega

theorem streamPlace_mod_word (i : Nat) : streamPlace (i % 32) = streamPlace i := by
  unfold streamPlace; omega

/-- The bit that stream bit i selects among the bytes f of a buffer is bit 31 - (i mod 32) of its word. -/
theorem stream_bit_eq_word_bit (f : Nat → Byte) (base i : Nat) :
    let a := base + 4 * (i / 32)
    (f (streamByte base i)).getLsbD (streamPlace i) =
      (f a ++ f (a + 1) ++ f (a + 2) ++ f (a + 3)).getLsbD (31 - i % 32) := by
  intro a
  rw [getLsbD_append_bytes f a (Nat.mod_lt i (by decide)), streamByte_eq_word_add, ← streamPlace_mod_word, streamPlace]

/-- Settles O23: both buffers keep a word's bits [31:24] in its first byte. -/
theorem streamBitIsWordBit : Obligations.StreamBitIsWordBit := fun s i =>
  ⟨stream_bit_eq_word_bit s.ibufByte ibufBase i, stream_bit_eq_word_bit s.obufByte obufBase i⟩

/-! ## Accesses while BUSY = 1 -/

section Busy

variable {s : State} (hb : s.busy = true)
include hb

/-- A host write while BUSY = 1 raises Overrun, whatever its address (R213). -/
theorem hostWrite_of_busy (a : Addr) (v : Word) : hostWrite a v s = s.raiseHost .overrun := if_pos hb

/-- The one read that delivers contents while BUSY = 1 is that of STATUS (R60). -/
theorem hostRead_status_of_busy : hostRead statusAddr s = s.deliver s.status := by
  rw [hostRead, if_pos hb, if_pos rfl]

/-- Any other read while BUSY = 1 delivers a free word (R60). -/
theorem hostRead_of_busy {a : Addr} (ha : a ≠ statusAddr) : hostRead a s = s.deliverFree := by
  rw [hostRead, if_pos hb, if_neg ha]

end Busy

/-- Settles O29: the three kinds of access with BUSY = 1, and what Overrun does to a latched command. -/
theorem busyAccessOverrunsOrReadsFree : Obligations.BusyAccessOverrunsOrReadsFree := by
  intro s a v hb
  have hw : hostWrite a v s = s.raiseHost .overrun := hostWrite_of_busy hb a v
  exact ⟨hw, by rw [hw]; rfl, hostRead_status_of_busy hb, fun ha => hostRead_of_busy hb ha⟩

end Sys2Proof.Machine
end

section
/-! PROOF. The obligations on the encoding: a word and its fields determine each other, a row of the opcode map matches
exactly the words with its command's fields, and the decoder, the encoder and R73's clauses follow from that. -/

namespace Sys2Proof

/-! ## Words and fields -/

/-- The fields of a word make up the word (R70). -/
@[simp] theorem Cmd32.word_ofWord (w : Word) : (Cmd32.ofWord w).word = w := by
  have hlow : w.extractLsb' 8 20 ++ w.extractLsb' 0 8 = w.extractLsb' 0 28 :=
    BitVec.extractLsb'_append_extractLsb'_eq_extractLsb' rfl
  have hall : w.extractLsb' 28 4 ++ w.extractLsb' 0 28 = w.extractLsb' 0 32 :=
    BitVec.extractLsb'_append_extractLsb'_eq_extractLsb' rfl
  calc (Cmd32.ofWord w).word = w.extractLsb' 28 4 ++ (w.extractLsb' 8 20 ++ w.extractLsb' 0 8) := BitVec.append_assoc
    _ = w := by rw [hlow, hall, BitVec.extractLsb'_eq_self]

/-- A word made of fields has these fields (R70). -/
@[simp] theorem Cmd32.ofWord_word (f : Cmd32) : Cmd32.ofWord f.word = f := by
  have hop : f.word.extractLsb' 28 4 = f.op := by
    rw [Cmd32.word, BitVec.extractLsb'_append_eq_of_le (by decide)]
    exact BitVec.extractLsb'_append_eq_left
  have hrsv : f.word.extractLsb' 8 20 = f.rsv := by
    rw [Cmd32.word, BitVec.extractLsb'_append_eq_of_le (by decide)]
    exact BitVec.extractLsb'_append_eq_right
  have hsym : f.word.extractLsb' 0 8 = f.sym8 := BitVec.extractLsb'_append_eq_right
  rw [Cmd32.ofWord, hop, hrsv, hsym]

theorem Cmd32.ofWord_eq_iff {w : Word} {f : Cmd32} : Cmd32.ofWord w = f ↔ w = f.word :=
  ⟨fun h => by rw [← h, word_ofWord], fun h => by rw [h, ofWord_word]⟩

theorem Cmd32.word_inj {f g : Cmd32} : f.word = g.word ↔ f = g := by
  rw [← ofWord_eq_iff, ofWord_word]

/-- ENC_SYM's mask keeps OP and RSV and clears SYM8 (R71). -/
theorem and_encSym_mask (w : Word) :
    w &&& 0xFFFFFF00 = Cmd32.word ⟨(Cmd32.ofWord w).op, (Cmd32.ofWord w).rsv, 0⟩ := by
  have hmask : (0xFFFFFF00 : Word) = BitVec.allOnes 4 ++ BitVec.allOnes 20 ++ 0#8 := by decide
  calc w &&& 0xFFFFFF00 = (Cmd32.ofWord w).word &&& 0xFFFFFF00 := by rw [Cmd32.word_ofWord]
    _ = Cmd32.word ⟨(Cmd32.ofWord w).op, (Cmd32.ofWord w).rsv, 0⟩ := by
      rw [hmask, Cmd32.word, BitVec.and_append, BitVec.and_append, BitVec.and_allOnes, BitVec.and_allOnes,
        BitVec.and_zero]
      rfl

/-! ## The fields of a command -/

/-- Every command's fields are those of a legal encoding (R72, R73). -/
theorem Instr.wf_eq_true (i : Instr) : i.wf = true := by
  cases i with
  | nop => exact Laws.Fields.nop.1
  | initEnc => exact Laws.Fields.initEnc.1
  | initDec => exact Laws.Fields.initDec.1
  | encSym a => exact (Laws.Fields.encSym a).1
  | decSym => exact Laws.Fields.decSym.1
  | finish => exact Laws.Fields.finish.1

theorem Cmd32.wf_eq_true_iff {f : Cmd32} :
    f.wf = true ↔ f.op.toNat ≤ 5 ∧ f.rsv = 0 ∧ (f.op = 3 ∨ f.sym8 = 0) := by
  simp [wf, opOk, rsvOk, symOk, and_assoc]

/-- The clauses of R73, on a word's fields. -/
theorem Cmd32.wf_eq_false_iff {f : Cmd32} :
    f.wf = false ↔ 6 ≤ f.op.toNat ∨ f.rsv ≠ 0 ∨ (f.op ≠ 3 ∧ f.sym8 ≠ 0) := by
  rw [← Bool.not_eq_true, wf_eq_true_iff, not_and_or, not_and_or, not_or, not_le]
  exact Iff.rfl

/-- An OP outside the reserved 0x6 to 0xF (R73). -/
theorem op_cases_of_le_five {o : BitVec 4} (h : o.toNat ≤ 5) : o = 0 ∨ o = 1 ∨ o = 2 ∨ o = 3 ∨ o = 4 ∨ o = 5 := by
  revert o; decide

/-- The fields to which no clause of R73 applies are exactly the commands' fields. -/
theorem Cmd32.wf_iff {f : Cmd32} : f.wf = true ↔ ∃ i : Instr, f = i.fields := by
  refine ⟨fun h => ?_, fun ⟨i, hi⟩ => hi ▸ i.wf_eq_true⟩
  obtain ⟨o, r, a⟩ := f
  obtain ⟨ho, rfl, ha⟩ := wf_eq_true_iff.mp h
  by_cases h3 : o = 3
  · subst h3; exact ⟨.encSym a, rfl⟩
  · obtain rfl : a = 0 := ha.resolve_left h3
    rcases op_cases_of_le_five ho with rfl | rfl | rfl | rfl | rfl | rfl
    · exact ⟨.nop, rfl⟩
    · exact ⟨.initEnc, rfl⟩
    · exact ⟨.initDec, rfl⟩
    · exact absurd rfl h3
    · exact ⟨.decSym, rfl⟩
    · exact ⟨.finish, rfl⟩

/-! ## The rows of the opcode map -/

theorem Instr.op_withOperand (i : Instr) (w : Word) : (i.withOperand w).op = i.op := by
  cases i <;> rfl

/-- A row without operand matches its own word only (R71). -/
theorem OpRow.hits_iff_of_full_mask {r : OpRow} (hm : r.mask = 0xFFFFFFFF) (w : Word) :
    r.hits w = true ↔ w = r.pattern := by
  have hall : (0xFFFFFFFF : Word) = BitVec.allOnes 32 := by decide
  rw [OpRow.hits, hm, hall, BitVec.and_allOnes, beq_iff_eq]

/-- The word that a row without operand matches has exactly its command's fields (R71). -/
theorem OpRow.hits_iff_fields_of_full_mask {r : OpRow} (hm : r.mask = 0xFFFFFFFF) (hp : r.pattern = encode r.row)
    (w : Word) : r.hits w = true ↔ Cmd32.ofWord w = r.row.fields := by
  rw [hits_iff_of_full_mask hm, hp, Cmd32.ofWord_eq_iff, encode]

/-- A word matches ENC_SYM's row when it has ENC_SYM's OP and RSV is zero; its SYM8 is the operand (R71, R72). -/
theorem and_encSym_mask_eq_iff (w : Word) :
    w &&& 0xFFFFFF00 = 0x30000000 ↔ Cmd32.ofWord w = (Instr.encSym (w.extractLsb' 0 8)).fields := by
  have hpat : (0x30000000 : Word) = (Instr.encSym 0).fields.word := by decide
  rw [and_encSym_mask, hpat, Cmd32.word_inj]
  simp [Instr.fields, Instr.op, Instr.sym8, Cmd32.ofWord]

/-- The words that match a row are exactly those with the fields of its command, the operand taken from the word (R71,
R72). -/
theorem OpRow.hits_iff_fields {r : OpRow} (hr : r ∈ opcodeMap) (w : Word) :
    r.hits w = true ↔ Cmd32.ofWord w = (r.row.withOperand w).fields := by
  simp only [opcodeMap, List.mem_cons, List.not_mem_nil, or_false] at hr
  rcases hr with rfl | rfl | rfl | rfl | rfl | rfl
  · exact hits_iff_fields_of_full_mask rfl (by decide) w
  · exact hits_iff_fields_of_full_mask rfl (by decide) w
  · exact hits_iff_fields_of_full_mask rfl (by decide) w
  · exact beq_iff_eq.trans (and_encSym_mask_eq_iff w)
  · exact hits_iff_fields_of_full_mask rfl (by decide) w
  · exact hits_iff_fields_of_full_mask rfl (by decide) w

/-- The rows have different operation codes (R71). -/
theorem opcodeMap_op_injective : ∀ r ∈ opcodeMap, ∀ r' ∈ opcodeMap, r.row.op = r'.row.op → r = r' := by
  decide

/-- At most one row matches a word (R71). -/
theorem opcodeMap_hits_unique {w : Word} {r r' : OpRow} (hr : r ∈ opcodeMap) (hr' : r' ∈ opcodeMap)
    (h : r.hits w = true) (h' : r'.hits w = true) : r = r' := by
  have hop {q : OpRow} (hq : q ∈ opcodeMap) (hw : q.hits w = true) : (Cmd32.ofWord w).op = q.row.op := by
    rw [(OpRow.hits_iff_fields hq w).mp hw]; exact q.row.op_withOperand w
  exact opcodeMap_op_injective r hr r' hr' ((hop hr h).symm.trans (hop hr' h'))

/-- The decoder reads the command of the row that the word matches (R71). -/
theorem decodeWord_eq_ok_iff_row {w : Word} {i : Instr} :
    decodeWord w = .ok i ↔ ∃ r ∈ opcodeMap, r.hits w = true ∧ i = r.row.withOperand w := by
  unfold decodeWord
  split
  case h_1 q hfind =>
    have hq : q ∈ opcodeMap := List.mem_of_find?_eq_some hfind
    have hqw : q.hits w = true := List.find?_some (p := fun r : OpRow => r.hits w) hfind
    constructor
    · intro h
      injection h with h
      exact ⟨q, hq, hqw, h.symm⟩
    · rintro ⟨r, hr, hw, rfl⟩
      rw [opcodeMap_hits_unique hr hq hw hqw]
  case h_2 hfind =>
    have hnone := List.find?_eq_none.mp hfind
    constructor
    · intro h
      cases h
    · rintro ⟨r, hr, hw, -⟩
      exact absurd hw (hnone r hr)

/-- Every command has a row, which reads it from a word with its fields (R71, R72). -/
theorem exists_row_of_fields {w : Word} {i : Instr} (h : Cmd32.ofWord w = i.fields) :
    ∃ r ∈ opcodeMap, i = r.row.withOperand w := by
  cases i with
  | nop => exact ⟨⟨0x00000000, 0xFFFFFFFF, .nop⟩, by decide, rfl⟩
  | initEnc => exact ⟨⟨0x10000000, 0xFFFFFFFF, .initEnc⟩, by decide, rfl⟩
  | initDec => exact ⟨⟨0x20000000, 0xFFFFFFFF, .initDec⟩, by decide, rfl⟩
  | encSym a => exact ⟨⟨0x30000000, 0xFFFFFF00, .encSym 0⟩, by decide, congrArg (Instr.encSym ·.sym8) h.symm⟩
  | decSym => exact ⟨⟨0x40000000, 0xFFFFFFFF, .decSym⟩, by decide, rfl⟩
  | finish => exact ⟨⟨0x50000000, 0xFFFFFFFF, .finish⟩, by decide, rfl⟩

/-! ## The decoder -/

/-- The decoder reads a command exactly from the word with its fields (R70 to R72). -/
theorem decodeWord_eq_ok_iff_fields {w : Word} {i : Instr} : decodeWord w = .ok i ↔ Cmd32.ofWord w = i.fields := by
  rw [decodeWord_eq_ok_iff_row]
  constructor
  · rintro ⟨r, hr, hw, rfl⟩
    exact (OpRow.hits_iff_fields hr w).mp hw
  · intro h
    obtain ⟨r, hr, rfl⟩ := exists_row_of_fields h
    exact ⟨r, hr, (OpRow.hits_iff_fields hr w).mpr h, rfl⟩

/-- Settles O2: the decoder reads i from the word with i's fields, which is the one that `encode` builds. -/
theorem decodeEncodeAgree : Obligations.DecodeEncodeAgree := fun i _ =>
  ⟨i.wf_eq_true, decodeWord_eq_ok_iff_fields.trans Cmd32.ofWord_eq_iff⟩

/-- Settles O1: the six rows one by one. -/
theorem decodeFollowsOpcodeMap : Obligations.DecodeFollowsOpcodeMap := by
  refine ⟨fun w i => ?_, fun w r r' => opcodeMap_hits_unique⟩
  have hfull (p : Word) (c : Instr) : OpRow.hits ⟨p, 0xFFFFFFFF, c⟩ w = true ↔ w = p :=
    OpRow.hits_iff_of_full_mask rfl w
  have hsym : OpRow.hits ⟨0x30000000, 0xFFFFFF00, .encSym 0⟩ w = true ↔ w &&& 0xFFFFFF00 = 0x30000000 := beq_iff_eq
  simp only [decodeWord_eq_ok_iff_row, opcodeMap, List.exists_mem_cons_iff, List.not_mem_nil, false_and, exists_false,
    or_false, hfull, hsym, Instr.withOperand]

/-- A word is rejected exactly when a clause of R73 applies to its fields. -/
theorem decodeWord_error_iff {w : Word} : (∃ e, decodeWord w = .error e) ↔ (Cmd32.ofWord w).wf = false := by
  have hok : (∃ i, decodeWord w = .ok i) ↔ (Cmd32.ofWord w).wf = true := by
    simp only [decodeWord_eq_ok_iff_fields, Cmd32.wf_iff]
  rw [← Bool.not_eq_true, ← hok]
  cases decodeWord w <;> simp

end Sys2Proof

namespace Sys2Proof.Machine

/-! ## Executing an illegal word -/

theorem executeWord_of_error {w : Word} (h : ∃ e, decodeWord w = .error e) (s : State) :
    executeWord w s = execIllegalWord s := by
  obtain ⟨e, he⟩ := h
  rw [executeWord, he]

/-- Outside FAULTED an illegal word raises IllegalCommand (R73, R171). -/
theorem execIllegalWord_of_not_faulted {s : State} (hs : s.runState ≠ .faulted) :
    execIllegalWord s = .next (s.raise .illegalCommand) := by
  have hl : illegalWordLegality s.runState = .illegal := by
    cases hr : s.runState with
    | faulted => exact absurd hr hs
    | idle | active | terminated => rfl
  rw [execIllegalWord, hl, issue_illegal]

/-- In FAULTED an illegal word is ignored (R178). -/
theorem execIllegalWord_of_faulted {s : State} (hs : s.runState = .faulted) : execIllegalWord s = .next s := by
  rw [execIllegalWord, hs]; rfl

/-- Settles O3: the words rejected by the decoder are those of R73's clauses, and `execIllegalWord` is what they do. -/
theorem illegalWordsRaiseOrAreIgnored : Obligations.IllegalWordsRaiseOrAreIgnored := by
  intro w s illegal
  have hill : (∃ e, decodeWord w = .error e) ↔ illegal := decodeWord_error_iff.trans Cmd32.wf_eq_false_iff
  refine ⟨hill, fun hi hs => ?_, fun hi hs => ?_⟩
  · rw [executeWord_of_error (hill.mpr hi), execIllegalWord_of_not_faulted hs]
  · rw [executeWord_of_error (hill.mpr hi), execIllegalWord_of_faulted hs]

/-- Settles O4: each sample word is evaluated. -/
theorem sampleWordsDecode : Obligations.SampleWordsDecode := by
  unfold Obligations.SampleWordsDecode; decide

end Sys2Proof.Machine
end

section
/-! PROOF. The obligations on the estimator: its passes (R104 to R110), the cold model (R107), and how far P and F are a
distribution (R112, R113). -/

namespace Sys2Proof.Machine

/-! ## The records an estimation visits -/

/-- The loop of EstimateOne visits k = n - 1 down to 0 (R101, R104). -/
theorem levels_eq_map (t : Table) (h : Context) (n : Nat) :
    levels t h n = (List.range n).reverse.map (fun k => t.record? (ctx h k)) := by
  induction n with
  | zero => rfl
  | succ n ih => rw [levels, ih, List.range_succ, List.reverse_append]; rfl

theorem record?_mem_levels (t : Table) (h : Context) {n k : Nat} (hk : k < n) : t.record? (ctx h k) ∈ levels t h n := by
  rw [levels_eq_map]
  exact List.mem_map.mpr ⟨k, List.mem_reverse.mpr (List.mem_range.mpr hk), rfl⟩

/-- With T empty every context is unseen, and EstimateOne is the uniform fallback (R107, R108). -/
theorem estimateFrom_levels_nil (b : Config.Build) (h : Context) (a : Symbol) (n : Nat) (p : ℚ) (x : List Symbol) :
    estimateFrom b a (levels [] h n) p x = uniformStep b p x := by
  induction n with
  | zero => rfl
  | succ n ih => exact ih

/-! ## The passes in exact arithmetic -/

section
variable {b : Config.Build} (hb : b.probArith = .exact)
include hb

theorem uniformStep_exact (p : ℚ) {x : List Symbol} (hx : x.length ≤ 255) :
    uniformStep b p x = p * (1 / (256 - x.length)) := by
  rw [uniformStep, roundStep_exact hb, roundStep_exact hb, Config.NSYM_eq, Nat.cast_sub (by omega), Nat.cast_ofNat]

/-- A resolution takes c / (C + 1) of the mass (R110). -/
theorem resolveStep_of_pos (p : ℚ) (n : Nat) {c : Nat} (hc : 0 < c) : resolveStep b p n c = p * (n / (c + 1)) := by
  have : (c : ℚ) ≠ 0 := by exact_mod_cast hc.ne'
  rw [resolveStep_exact hb]
  field_simp
  ring

theorem escapeStep_pos {p : ℚ} (hp : 0 < p) (c : Nat) : 0 < escapeStep b p c := by
  rw [escapeStep_exact hb]; positivity

end

/-- X leaves a symbol only where it has at most 255. -/
theorem length_le_of_not_mem {x : List Symbol} (hx : x.Nodup) {a : Symbol} (ha : a ∉ x) : x.length ≤ 255 := by
  have : 0 < (included x).card := Finset.card_pos.mpr ⟨a, mem_included.mpr ha⟩
  rw [card_included hx] at this
  omega

/-- A symbol that X leaves is among those that C(rec, X) counts (R102). -/
theorem cnt_le_nonExcluded {b : Config.Build} {r : CtxRecord} (h : r.Sound b) {x : List Symbol} (hx : x.Nodup)
    {a : Symbol} (ha : a ∉ x) : r.cnt a ≤ r.nonExcluded x := by
  rw [nonExcluded_eq h hx]
  exact Finset.single_le_sum (f := r.cnt) (fun _ _ => Nat.zero_le _) (mem_included.mpr ha)

/-! ## Positivity and the mass that is given out -/

section
variable {b : Config.Build} (hb : b.probArith = .exact) {l : List (Option CtxRecord)}
include hb

/-- A symbol that X leaves gets a positive part of a positive mass, whichever pass it ends in (R113). -/
theorem estimateFrom_pos (hl : ∀ r, some r ∈ l → r.Sound b) {p : ℚ} (hp : 0 < p) {x : List Symbol} (hx : x.Nodup)
    {a : Symbol} (ha : a ∉ x) : 0 < estimateFrom b a l p x := by
  induction l generalizing p x with
  | nil =>
    have hlen := length_le_of_not_mem hx ha
    have : (0 : ℚ) < 256 - x.length := by
      have : (x.length : ℚ) ≤ 255 := by exact_mod_cast hlen
      linarith
    rw [estimateFrom, uniformStep_exact hb p hlen]
    positivity
  | cons o l ih =>
    have hl' : ∀ r, some r ∈ l → r.Sound b := fun r hr => hl r (List.mem_cons_of_mem _ hr)
    cases o with
    | none => exact ih hl' hp hx ha
    | some r =>
      have hr : r.Sound b := hl r List.mem_cons_self
      rw [estimateFrom]
      split
      · have hax : a ∉ exclude x r := by rw [mem_exclude hr]; simp [ha, ‹r.cnt a = 0›]
        exact ih hl' (escapeStep_pos hb hp _) (nodup_exclude hr hx) hax
      · have hc : 0 < r.cnt a := Nat.pos_of_ne_zero ‹_›
        have hC := hc.trans_le (cnt_le_nonExcluded hr hx ha)
        rw [resolveStep_of_pos hb p _ hC]
        positivity

/-- A pass at a seen context gives all but the escape mass to the symbols it resolves; the escape mass goes on to the
symbols that the grown X leaves (R109, R110). -/
theorem sum_estimateFrom_seen {r : CtxRecord} (hr : r.Sound b) (p : ℚ) {x : List Symbol} (hx : x.Nodup) :
    ∑ s ∈ included x, estimateFrom b s (some r :: l) p x =
      (p - escapeStep b p (r.nonExcluded x)) +
        ∑ s ∈ included (exclude x r), estimateFrom b s l (escapeStep b p (r.nonExcluded x)) (exclude x r) := by
  have hescape : included (exclude x r) = (included x).filter (fun s => r.cnt s = 0) := by
    ext s; simp [mem_included, mem_exclude hr]
  rw [← sum_resolveStep hb p hr hx, hescape, add_comm]
  simp only [estimateFrom]
  exact Finset.sum_ite _ _

/-- Where every symbol that X leaves is observed in a record still to visit, the last escape mass goes to no symbol. -/
theorem sum_estimateFrom_lt (hl : ∀ r, some r ∈ l → r.Sound b) {p : ℚ} (hp : 0 < p) {x : List Symbol} (hx : x.Nodup)
    (hseen : ∀ a, a ∉ x → ∃ r, some r ∈ l ∧ r.cnt a ≠ 0) : ∑ s ∈ included x, estimateFrom b s l p x < p := by
  induction l generalizing p x with
  | nil =>
    have hempty : included x = ∅ := Finset.eq_empty_of_forall_notMem fun a ha => by
      simpa using hseen a (mem_included.mp ha)
    rw [hempty, Finset.sum_empty]; exact hp
  | cons o l ih =>
    have hl' : ∀ r, some r ∈ l → r.Sound b := fun r hr => hl r (List.mem_cons_of_mem _ hr)
    cases o with
    | none => exact ih hl' hp hx fun a ha => by simpa using hseen a ha
    | some r =>
      have hr : r.Sound b := hl r List.mem_cons_self
      have hlt := ih hl' (escapeStep_pos hb hp (r.nonExcluded x)) (nodup_exclude hr hx) fun a ha => by
        rw [mem_exclude hr] at ha
        obtain ⟨r', hr', hc⟩ := hseen a (fun h => ha (.inl h))
        rcases List.mem_cons.mp hr' with he | hr'
        · obtain rfl := Option.some.inj he
          exact absurd (.inr (Nat.pos_of_ne_zero hc)) ha
        · exact ⟨r', hr', hc⟩
      rw [sum_estimateFrom_seen hb hr p hx]
      linarith

end

/-! ## The vectors P and F -/

section
variable {b : Config.Build} {w : Nat} {t : Table} {h : Context} (hb : b.probArith = .exact) (ht : t.Sound b w)

theorem sound_of_mem_levels (ht : t.Sound b w) (n : Nat) : ∀ r, some r ∈ levels t h n → r.Sound b := fun _ hr => by
  obtain ⟨k, -, hr⟩ := record?_of_mem_levels hr
  exact ht.of_record? hr

include hb ht

/-- Every P[s] is positive (R113). -/
theorem estimate_p_pos (a : Symbol) : 0 < (estimate b t h).p a := by
  rw [estimate_p]
  exact estimateFrom_pos hb (sound_of_mem_levels ht _) one_pos List.nodup_nil List.not_mem_nil

/-- F[256] < 1 where every symbol is observed in a visited record (log entry 7). -/
theorem estimate_f_last_lt (hseen : ∀ a, ∃ k ≤ h.length, ∃ r, t.record? (ctx h k) = some r ∧ r.cnt a ≠ 0) :
    (estimate b t h).f 256 < 1 := by
  rw [estimate_f t h hb le_rfl, List.take_of_length_le (length_estimate_P t h).le]
  show (alphabet.map (fun s => estimateFrom b s (levels t h (h.length + 1)) 1 [])).sum < 1
  rw [sum_alphabet]
  refine sum_estimateFrom_lt hb (sound_of_mem_levels ht _) one_pos List.nodup_nil fun a _ => ?_
  obtain ⟨k, hk, r, hr, hc⟩ := hseen a
  exact ⟨r, hr ▸ record?_mem_levels t h (Nat.lt_succ_of_le hk), hc⟩

/-- F[256] = 1 exactly where some symbol is observed in none of the visited records (log entry 7). -/
theorem estimate_f_last_eq_one_iff :
    (estimate b t h).f 256 = 1 ↔ ∃ a : Symbol, ∀ k ≤ h.length, ∀ r, t.record? (ctx h k) = some r → r.cnt a = 0 := by
  refine ⟨fun h1 => ?_, fun ⟨a, ha⟩ => estimate_f_last t h hb ht ha⟩
  by_contra hn
  push Not at hn
  exact (estimate_f_last_lt hb ht hn).ne h1

theorem estimate_f_last_le_one : (estimate b t h).f 256 ≤ 1 := by
  by_cases hz : ∃ a : Symbol, ∀ k ≤ h.length, ∀ r, t.record? (ctx h k) = some r → r.cnt a = 0
  · exact ((estimate_f_last_eq_one_iff hb ht).mpr hz).le
  · push Not at hz
    exact (estimate_f_last_lt hb ht hz).le

end

/-- P of the cold model, as a whole vector (R107). -/
theorem estimate_nil_P (h : Context) : (estimate Config.build [] h).P = List.replicate 256 (1 / 256) := by
  have hu : uniformStep Config.build 1 [] = 1 / 256 := by
    rw [uniformStep_exact (b := Config.build) rfl 1 (x := []) (Nat.zero_le 255)]; norm_num
  simp only [estimate, estimateFrom_levels_nil, hu, List.map_const', length_alphabet]

/-! ## An order-0 record of all symbols -/

/-- A record that holds each of the 256 symbols n times. -/
def fullRecord (n : Nat) : CtxRecord := { total := 256 * n, counts := alphabet.map (fun a => (a, n)) }

theorem cnt_fullRecord (n : Nat) (a : Symbol) : (fullRecord n).cnt a = n := by
  have key (l : List Symbol) (ha : a ∈ l) : Assoc.find? BitVec.toNat (l.map (fun s => (s, n))) a = some n := by
    induction l with
    | nil => simp at ha
    | cons s l ih =>
      rw [List.map_cons, Assoc.find?]
      split
      · rfl
      · refine ih ((List.mem_cons.mp ha).resolve_left ?_)
        rintro rfl; contradiction
  rw [CtxRecord.cnt, fullRecord, key alphabet (mem_alphabet a)]; rfl

theorem sorted_alphabet : alphabet.Pairwise (fun a b => a.toNat < b.toNat) := by
  refine List.pairwise_map.mpr (List.pairwise_lt_range.imp_of_mem fun ha hb hlt => ?_)
  rw [List.mem_range, Config.NSYM_eq] at ha hb
  rwa [BitVec.toNat_ofNat, BitVec.toNat_ofNat, Nat.mod_eq_of_lt ha, Nat.mod_eq_of_lt hb]

theorem fullRecord_sound {b : Config.Build} {n : Nat} (hn : 0 < n) (hm : 256 * n ≤ countMax b) :
    (fullRecord n).Sound b where
  sorted := List.pairwise_map.mpr sorted_alphabet
  positive e he := by
    obtain ⟨a, -, rfl⟩ := List.mem_map.mp he
    exact hn
  total_eq := by
    rw [funext (cnt_fullRecord n), List.map_const', List.sum_replicate, length_alphabet]; rfl
  total_pos := by show 1 ≤ 256 * n; omega
  total_le := hm

/-! ## The obligations -/

/-- Settles O32: each clause is one equation of the loop. -/
theorem estimatePasses : Obligations.EstimatePasses := by
  refine ⟨fun b t h s => congrArg (estimateFrom b s · 1 []) (levels_eq_map t h _), fun b s l r p x hb => ?_⟩
  refine ⟨uniformStep_exact hb p, rfl, fun hr h0 => ?_, fun hc => ?_, fun hc hC => ?_⟩
  · refine ⟨exclude x r, fun a => mem_exclude hr, nodup_exclude hr, ?_⟩
    rw [estimateFrom, if_pos h0, escapeStep_exact hb]; rfl
  · rw [estimateFrom, if_neg hc.ne', resolveStep_exact hb]; rfl
  · rw [estimateFrom, if_neg hc.ne', CtxRecord.nonExcluded, resolveStep_of_pos hb p _ hC]

/-- Settles O33: P is constant, and F sums it. -/
theorem coldModelIsUniform : Obligations.ColdModelIsUniform := by
  intro h a n hn
  constructor
  · rw [Estimate.p, estimate_nil_P, List.getD_replicate _ a.isLt]
  · rw [estimate_f [] h rfl hn, estimate_nil_P, List.take_replicate, List.sum_replicate, min_eq_left hn, nsmul_eq_mul]
    ring

/-- Settles O34: the parts, with F's step from P's positivity. -/
theorem estimateIsDistribution : Obligations.EstimateIsDistribution := by
  intro b w t h hb ht
  have hp (a : Symbol) : 0 < (estimate b t h).p a := estimate_p_pos hb ht a
  refine ⟨fun a => ⟨hp a, estimate_p t h a⟩, estimate_f_zero t h, fun a => ⟨estimate_f_succ t h hb a, ?_⟩,
    estimate_f_last_le_one hb ht, estimate_f_last_eq_one_iff hb ht⟩
  rw [estimate_f_succ t h hb a]
  exact lt_add_of_pos_right _ (hp a)

/-- Refutes O35: once each of the 256 symbols has been coded, order 0 holds all of them, each twice (R116, R118), and its
escape mass goes to no symbol. -/
theorem not_estimateSumsToOneAlways : ¬ Obligations.EstimateSumsToOneAlways := by
  intro hall
  have ht : Table.Sound Config.build 0 [([], fullRecord 2)] :=
    { sorted := List.pairwise_singleton _ _
      short := by simp
      records := by simpa using fullRecord_sound (b := Config.build) (by decide) (by simp) }
  have hlt := estimate_f_last_lt (h := []) rfl ht fun a => ⟨0, le_rfl, fullRecord 2, rfl, by simp [cnt_fullRecord]⟩
  exact hlt.ne (hall Config.build 0 _ [] rfl ht le_rfl).1

end Sys2Proof.Machine
end

section
/-! PROOF. The obligations on Observe: what it writes (R115 to R119), its limits (R121, R122), and the slide (R120). -/

namespace Sys2Proof

/-! ## One more observation -/

/-- r' is r with s counted n times more (R116 to R119). -/
structure CtxRecord.Counted (s : Symbol) (n : Nat) (r r' : CtxRecord) : Prop where
  total : r'.total = r.total + n
  cnt   : ∀ a, r'.cnt a = if a = s then r.cnt s + n else r.cnt a

/-- What an unseen context holds: no symbol. -/
def CtxRecord.empty : CtxRecord := { total := 0, counts := [] }

@[simp] theorem CtxRecord.cnt_empty (a : Symbol) : CtxRecord.empty.cnt a = 0 := rfl

@[simp] theorem CtxRecord.total_empty : CtxRecord.empty.total = 0 := rfl

theorem CtxRecord.counted_fresh (s : Symbol) : CtxRecord.Counted s 1 .empty (.fresh s) :=
  ⟨rfl, fun a => by simp [CtxRecord.cnt_fresh]⟩

theorem CtxRecord.counted_bump (r : CtxRecord) (s : Symbol) : r.Counted s 1 (r.bump s) := ⟨rfl, r.cnt_bump s⟩

theorem CtxRecord.Counted.trans {s : Symbol} {m n : Nat} {r r' r'' : CtxRecord} (h : r.Counted s m r')
    (h' : r'.Counted s n r'') : r.Counted s (m + n) r'' where
  total := by rw [h'.total, h.total, add_assoc]
  cnt a := by
    rw [h'.cnt, h.cnt, h.cnt, if_pos rfl, add_assoc]
    split <;> rfl

/-- Contexts of different orders differ (R101). -/
theorem ctx_ne {h : Context} {j k : Nat} (hj : j ≤ h.length) (hk : k ≤ h.length) (hjk : j ≠ k) : ctx h j ≠ ctx h k :=
  fun he => hjk (by rw [← length_ctx hj, ← length_ctx hk, he])

namespace Machine

/-! ## The loop of Observe -/

/-- The context of order k of the history already holds s. -/
abbrev HoldsAt (t : Table) (h : Context) (s : Symbol) (k : Nat) : Prop :=
  ∃ r, t.record? (ctx h k) = some r ∧ r.cnt s ≠ 0

theorem HoldsAt.congr {t u : Table} {h : Context} {s : Symbol} {k : Nat}
    (he : u.record? (ctx h k) = t.record? (ctx h k)) : HoldsAt u h s k ↔ HoldsAt t h s k := by
  rw [HoldsAt, HoldsAt, he]

/-- One pass at order k counts s once there (R117 to R119), and the loop goes on to shorter orders just where the context
did not hold s. -/
theorem observeFrom_pass {b : Config.Build} {h : Context} {s : Symbol} {k : Nat} {t t' : Table}
    (hok : observeFrom b h s (k + 1) t = .ok t') :
    ∃ r, ((t.record? (ctx h k)).getD .empty).Counted s 1 r ∧
      ((HoldsAt t h s k ∧ t' = t.put (ctx h k) r) ∨
        (¬ HoldsAt t h s k ∧ observeFrom b h s k (t.put (ctx h k) r) = .ok t')) := by
  rcases observeFrom_succ_ok hok with ⟨hr, -, h'⟩ | ⟨r, t₁, hr, hs, h₁, h'⟩ | ⟨r, hr, hs, h'⟩
  · refine ⟨.fresh s, by rw [hr]; exact CtxRecord.counted_fresh s, .inr ⟨?_, h'⟩⟩
    rintro ⟨r, hr', -⟩
    rw [hr] at hr'; injection hr'
  · obtain ⟨rfl, -⟩ := bumpRecord_ok h₁
    refine ⟨r.bump s, by rw [hr]; exact r.counted_bump s, .inr ⟨?_, h'⟩⟩
    rintro ⟨r', hr', hs'⟩
    obtain rfl := Option.some.inj (hr.symm.trans hr')
    exact hs' hs
  · obtain ⟨rfl, -⟩ := bumpRecord_ok h'
    exact ⟨r.bump s, by rw [hr]; exact r.counted_bump s, .inl ⟨⟨r, hr, hs⟩, rfl⟩⟩

/-- How often Observe counts s at order k when it gets there: at order 0 once more where s is new (R116). -/
def timesCounted (t : Table) (h : Context) (s : Symbol) (k : Nat) : Nat :=
  if k = 0 ∧ ¬ HoldsAt t h s 0 then 2 else 1

/-- What Observe makes of the table t when it starts at order k: t'. -/
structure ObserveEffect (h : Context) (s : Symbol) (k : Nat) (t t' : Table) : Prop where
  other   : ∀ c, (∀ j ≤ k, c ≠ ctx h j) → t'.record? c = t.record? c
  shorter : ∀ j ≤ k, (∃ i, j < i ∧ i ≤ k ∧ HoldsAt t h s i) → t'.record? (ctx h j) = t.record? (ctx h j)
  counted : ∀ j ≤ k, (¬ ∃ i, j < i ∧ i ≤ k ∧ HoldsAt t h s i) →
    ∃ r, t'.record? (ctx h j) = some r ∧ ((t.record? (ctx h j)).getD .empty).Counted s (timesCounted t h s j) r

section
variable {h : Context} {s : Symbol} {t : Table} {r : CtxRecord}

/-- Where the context of order k holds s, Observe counts it there and stops (R119). -/
theorem ObserveEffect.stop {k : Nat} (hk : k ≤ h.length) (hs : HoldsAt t h s k)
    (hr : ((t.record? (ctx h k)).getD .empty).Counted s 1 r) : ObserveEffect h s k t (t.put (ctx h k) r) where
  other c hc := Table.record?_put_other t r (hc k le_rfl).symm
  shorter j hj hi := by
    obtain ⟨i, hji, hik, -⟩ := hi
    exact Table.record?_put_other t r (ctx_ne hk (by omega) (by omega))
  counted j hj hn := by
    obtain rfl : j = k := by
      by_contra hne
      exact hn ⟨k, by omega, le_rfl, hs⟩
    have htimes : timesCounted t h s j = 1 := if_neg fun ⟨h0, hn⟩ => hn (h0 ▸ hs)
    exact ⟨r, Table.record?_put_same t _ r, by rwa [htimes]⟩

/-- Where not even order 0 holds s, Observe counts it there twice (R116). -/
theorem ObserveEffect.floor (hs : ¬ HoldsAt t h s 0) (hr : ((t.record? (ctx h 0)).getD .empty).Counted s 1 r) :
    ObserveEffect h s 0 t ((t.put (ctx h 0) r).put (ctx h 0) (r.bump s)) where
  other c hc := by
    rw [Table.record?_put_other _ _ (hc 0 le_rfl).symm, Table.record?_put_other _ _ (hc 0 le_rfl).symm]
  shorter j hj hi := by
    obtain ⟨i, hji, hi0, -⟩ := hi
    omega
  counted j hj _ := by
    obtain rfl : j = 0 := Nat.le_zero.mp hj
    have htimes : timesCounted t h s 0 = 1 + 1 := if_pos ⟨rfl, hs⟩
    exact ⟨r.bump s, Table.record?_put_same _ _ _, by rw [htimes]; exact hr.trans (r.counted_bump s)⟩

/-- Where order k + 1 does not hold s, Observe counts it there and goes on to order k (R117, R118). -/
theorem ObserveEffect.step {k : Nat} {t' : Table} (hk : k + 1 ≤ h.length) (hs : ¬ HoldsAt t h s (k + 1))
    (hr : ((t.record? (ctx h (k + 1))).getD .empty).Counted s 1 r)
    (he : ObserveEffect h s k (t.put (ctx h (k + 1)) r) t') : ObserveEffect h s (k + 1) t t' := by
  have hput (j : Nat) (hj : j ≤ k) : (t.put (ctx h (k + 1)) r).record? (ctx h j) = t.record? (ctx h j) :=
    Table.record?_put_other t r (ctx_ne hk (by omega) (by omega))
  have hholds (j : Nat) (hj : j ≤ k) : HoldsAt (t.put (ctx h (k + 1)) r) h s j ↔ HoldsAt t h s j :=
    HoldsAt.congr (hput j hj)
  have hlonger (j : Nat) : (∃ i, j < i ∧ i ≤ k ∧ HoldsAt (t.put (ctx h (k + 1)) r) h s i) ↔
      ∃ i, j < i ∧ i ≤ k + 1 ∧ HoldsAt t h s i := by
    constructor
    · rintro ⟨i, hji, hik, hi⟩
      exact ⟨i, hji, by omega, (hholds i hik).mp hi⟩
    · rintro ⟨i, hji, hik, hi⟩
      have hne : i ≠ k + 1 := by rintro rfl; exact hs hi
      exact ⟨i, hji, by omega, (hholds i (by omega)).mpr hi⟩
  constructor
  · intro c hc
    rw [he.other c fun j hj => hc j (by omega), Table.record?_put_other t r (hc (k + 1) le_rfl).symm]
  · intro j hj hi
    have hjk : j ≤ k := by obtain ⟨i, hji, hik, -⟩ := hi; omega
    rw [he.shorter j hjk ((hlonger j).mpr hi), hput j hjk]
  · intro j hj hn
    rcases Nat.le_succ_iff.mp hj with hjk | rfl
    · have htimes : timesCounted (t.put (ctx h (k + 1)) r) h s j = timesCounted t h s j := by
        simp only [timesCounted, hholds 0 (Nat.zero_le k)]
      have := he.counted j hjk (fun hi => hn ((hlonger j).mp hi))
      rwa [hput j hjk, htimes] at this
    · refine ⟨r, ?_, hr⟩
      rw [he.other _ fun j hj => ctx_ne hk (by omega) (by omega), Table.record?_put_same]

end

/-- Observe from order k down (R115 to R119). -/
theorem observeFrom_effect {b : Config.Build} (hb : b.floorRecord = .increment) {h : Context} {s : Symbol} {k : Nat}
    (hk : k ≤ h.length) {t t' : Table} (hok : observeFrom b h s (k + 1) t = .ok t') : ObserveEffect h s k t t' := by
  induction k generalizing t with
  | zero =>
    obtain ⟨r, hr, ⟨hs, rfl⟩ | ⟨hs, h'⟩⟩ := observeFrom_pass hok
    · exact .stop hk hs hr
    · rw [observeFrom, observeFloor, hb, ← ctx_zero h, Table.record?_put_same] at h'
      obtain ⟨rfl, -⟩ := bumpRecord_ok h'
      exact .floor hs hr
  | succ k ih =>
    obtain ⟨r, hr, ⟨hs, rfl⟩ | ⟨hs, h'⟩⟩ := observeFrom_pass hok
    · exact .stop hk hs hr
    · exact .step hk hs hr (ih (by omega) h')

/-! ## The limits of the frequency table -/

/-- Counting past the limit faults (R121). -/
theorem bumpRecord_overflow {b : Config.Build} {r : CtxRecord} {s : Symbol} (t : Table) (c : Context)
    (h : 2 ^ b.cntW - 1 < r.cnt s + 1 ∨ 2 ^ b.cntW - 1 < r.total + 1) :
    bumpRecord b t c r s = .error .countOverflow := if_pos h

/-- With CTX_CAP unbounded Observe can only raise CountOverflow (R122). -/
theorem observeFrom_unbounded_error {b : Config.Build} (hb : b.ctxCap = none) {h : Context} {s : Symbol} {k : Nat}
    {t : Table} {e : FaultCode} (herr : observeFrom b h s k t = .error e) : e = .countOverflow := by
  induction k generalizing t with
  | zero =>
    rw [observeFrom, observeFloor] at herr
    split at herr
    · exact bumpRecord_error herr
    · injection herr
  | succ k ih =>
    rw [observeFrom, tableIsFull, hb] at herr
    split at herr
    · exact ih herr
    · split at herr
      · split at herr
        · injection herr with herr
          exact herr ▸ bumpRecord_error ‹_›
        · exact ih herr
      · exact bumpRecord_error herr

/-! ## The obligations -/

/-- Settles O36: the effect of the whole loop, read for each record that was or was not there. -/
theorem observeUpdatesRecords : Obligations.ObserveUpdatesRecords := by
  intro h s t t' hok holds
  have he := observeFrom_effect rfl le_rfl hok
  refine ⟨he.other, fun k hk => ⟨he.shorter k hk, fun hn => ?_⟩⟩
  obtain ⟨r', hr', hc⟩ := he.counted k hk hn
  refine ⟨r', hr', ?_⟩
  cases hr : t.record? (ctx h k) with
  | none =>
    rw [hr] at hc
    refine ⟨hc.total.trans (Nat.zero_add _), fun a => (hc.cnt a).trans ?_⟩
    rw [Option.getD_none, CtxRecord.cnt_empty, CtxRecord.cnt_empty, Nat.zero_add]; rfl
  | some r =>
    rw [hr] at hc
    exact ⟨hc.total, hc.cnt⟩

/-- Settles O37: each limit is tested before its write. -/
theorem observeLimits : Obligations.ObserveLimits := by
  intro b h s k t
  refine ⟨fun n hr hn hfull => ?_, fun hb herr => ?_, fun r hr hlim => ?_, fun r hf hr hlim => ?_⟩
  · rw [observeFrom, hr]
    exact if_pos (by simp [tableIsFull, hn, hfull])
  · exact absurd (observeFrom_unbounded_error hb herr) (by decide)
  · rw [observeFrom, hr]
    simp only [bumpRecord_overflow t (ctx h k) hlim, ite_self]
  · rw [observeFrom, observeFloor, hf, hr]
    exact bumpRecord_overflow t [] hlim

/-- Settles O38: both branches of the slide, by whether the window is full. -/
theorem slideKeepsLastSymbols : Obligations.SlideKeepsLastSymbols := by
  intro w h s hw hh
  rw [slide]
  split
  · have hroom : h.length + 1 - w = 0 := by omega
    refine ⟨by rw [hroom, List.drop_zero], ?_⟩
    rw [List.length_append, List.length_singleton]; omega
  · have hfull : h.length + 1 - w = 1 := by omega
    refine ⟨by rw [hfull, List.drop_append_of_le_length (by omega)], ?_⟩
    rw [List.length_append, List.length_drop, List.length_singleton]; omega

end Machine

end Sys2Proof
end

section
/-! PROOF. Lockstep (R124): an encoder and a decoder that start a symbol with equal model and interval end it so. -/

namespace Sys2Proof.Machine

/-- The renormalizers take the same passes and stretch LO and HI alike (R139 to R143, R146). -/
theorem renormLoops_interval {b : Config.Build} {n : Nat} {s t d u : State} (hlo : s.lo = d.lo) (hhi : s.hi = d.hi)
    (he : renormEncLoop b n s = .ok t) (hd : renormDecLoop b n d = .ok u) : t.lo = u.lo ∧ t.hi = u.hi := by
  induction n generalizing s d with
  | zero => injection he
  | succ n ih =>
    rcases renormEncLoop_succ_ok he with ⟨hc, rfl⟩ | ⟨c, s', hc, hp, he'⟩ <;>
      rcases renormDecLoop_succ_ok hd with ⟨hc', rfl⟩ | ⟨c', d', hc', hp', hd'⟩ <;>
      rw [hlo, hhi, hc'] at hc
    · exact ⟨hlo, hhi⟩
    · injection hc
    · injection hc
    · obtain rfl := Option.some.inj hc
      obtain ⟨s'', -, rfl⟩ := renormEncPass_same hp
      obtain ⟨v, d'', -, -, -, -, rfl⟩ := stretchDec_ok hp'
      refine ih ?_ ?_ he' hd' <;> simp [hlo, hhi]

/-- Narrow reads the interval only, and Observe leaves it (R133, R124). -/
theorem codeSymbol_interval {b : Config.Build} {es : Estimate} {a : Symbol} {s t d u : State} (hlo : s.lo = d.lo)
    (hhi : s.hi = d.hi) (hs : codeSymbol b es a s = .ok t) (hd : codeSymbol b es a d = .ok u) :
    t.lo = u.lo ∧ t.hi = u.hi := by
  obtain ⟨-, -, ht⟩ := codeSymbol_frame hs
  obtain ⟨-, -, hu⟩ := codeSymbol_frame hd
  have hl : narrowedLo b es a s = narrowedLo b es a d := by
    rw [narrowedLo, narrowedLo, State.range, State.range, hlo, hhi]
  have hh : narrowedHi b es a s = narrowedHi b es a d := by
    rw [narrowedHi, narrowedHi, hl, State.range, State.range, hlo, hhi]
  constructor <;> rw [ht, hu] <;> simp [hl, hh]

/-- ENC_SYM and DEC_SYM of one symbol end in one interval. -/
theorem symbolRules_interval {b : Config.Build} {s s' d d' : State} (hT : s.table = d.table) (hH : s.hist = d.hist)
    (hlo : s.lo = d.lo) (hhi : s.hi = d.hi) (hs : encSymRule b d'.sym s = .ok s') (hd : decSymRule b d = .ok d') :
    s'.lo = d'.lo ∧ s'.hi = d'.hi := by
  obtain ⟨a, d₁, d₂, -, hc', hr', rfl⟩ := decSymRule_ok hd
  obtain ⟨s₁, s₂, hc, hr, rfl⟩ := encSymRule_ok hs
  rw [hT, hH] at hc
  obtain ⟨hlo₁, hhi₁⟩ := codeSymbol_interval hlo hhi hc hc'
  simpa using renormLoops_interval hlo₁ hhi₁ hr hr'

/-- Settles O56: Observe starts from the same model, and Narrow and the renormalizers from the same interval. -/
theorem encoderAndDecoderStayInLockstep : Obligations.EncoderAndDecoderStayInLockstep := by
  intro a s s' d d' hT hH hW hlo hhi hs hd ha
  subst ha
  obtain ⟨-, hs⟩ := completes_rule hs
  obtain ⟨-, hd⟩ := completes_rule hd
  obtain ⟨hTs, hsf⟩ := encSymRule_frame hs
  obtain ⟨a, hTd, hdf⟩ := decSymRule_frame hd
  obtain rfl : d'.sym = a := by rw [hdf]
  rw [hT, hH, hTd] at hTs
  refine ⟨(Except.ok.inj hTs).symm, ?_, ?_, symbolRules_interval hT hH hlo hhi hs hd⟩ <;> rw [hsf, hdf, hW]
  rw [hH]

end Sys2Proof.Machine
end

section
/-! PROOF. The obligations on Narrow and Locate (R133 to R138): the interval of a symbol in exact arithmetic, and that Locate
is its inverse on a table whose F rises. -/

namespace Sys2Proof.Machine

/-! ## The interval in numbers -/

section
variable {e : Estimate} {a : Symbol} {s : State}

/-- `range = HI - LO + 1` as the rules compute it (R132). -/
theorem range_cast (h : s.lo.toNat ≤ s.hi.toNat) : (s.range : ℚ) = s.hi.toNat + 1 - s.lo.toNat := by
  rw [State.range, Nat.cast_sub (by omega), Nat.cast_add, Nat.cast_one]

/-- `x = (VALUE - LO) / r` as the rules compute it (R137). -/
theorem scaledValue_eq (h : s.lo.toNat ≤ s.hi.toNat) (hv : s.lo.toNat ≤ s.value.toNat) :
    scaledValue Config.build s = (s.value.toNat - s.lo.toNat) / (s.hi.toNat + 1 - s.lo.toNat) := by
  rw [scaledValue_build, range_cast h, Nat.cast_sub hv]

theorem narrowedLo_le_narrowedHi : narrowedLo Config.build e a s ≤ narrowedHi Config.build e a s := Nat.le_add_right _ _

/-- LO is kept exactly where F[s] = 0 (R133). -/
theorem narrowedLo_eq_lo_iff (h : s.lo.toNat ≤ s.hi.toNat) :
    narrowedLo Config.build e a s = s.lo.toNat ↔ e.f a.toNat ≤ 0 := by
  have hr : (0 : ℚ) < s.range := by exact_mod_cast range_pos h
  rw [narrowedLo_build, Nat.add_eq_left, Nat.ceil_eq_zero, ← not_lt, mul_pos_iff_of_pos_left hr, not_lt]

/-- The narrowed interval is empty exactly when P[s] < 1/r (R134). -/
theorem narrowedLo_eq_narrowedHi_iff (h : s.lo.toNat ≤ s.hi.toNat) :
    narrowedLo Config.build e a s = narrowedHi Config.build e a s ↔ e.p a < 1 / s.range := by
  have hr : (0 : ℚ) < s.range := by exact_mod_cast range_pos h
  rw [narrowedHi_build, left_eq_add, Nat.floor_eq_zero, lt_div_iff₀' hr]

theorem narrow_of_p_zero (hp : e.p a = 0) : narrow Config.build e a s = .error .modelInconsistency := if_pos hp

/-- A bound past 2^64 - 1 is always HI's, LO being no larger (R136). -/
theorem narrow_of_overflow (hp : e.p a ≠ 0) (hh : 2 ^ 64 - 1 < narrowedHi Config.build e a s) :
    narrow Config.build e a s = .error .intervalOverflow := by
  simp [narrow, hp, widthOk_build_false.mpr hh]

/-- Below 2^64 the interval is taken unless it is empty (R134, R135). -/
theorem narrow_of_fits (hp : e.p a ≠ 0) (hh : narrowedHi Config.build e a s ≤ 2 ^ 64 - 1) :
    narrow Config.build e a s =
      if narrowedLo Config.build e a s = narrowedHi Config.build e a s then .error .zeroInterval
      else .ok (s.setInterval (narrowedLo Config.build e a s) (narrowedHi Config.build e a s)) := by
  simp [narrow, hp, widthOk_build.mpr hh, widthOk_build.mpr (narrowedLo_le_narrowedHi.trans hh)]

end

/-- Settles O40: the branches of Narrow, ZeroInterval as P[s] < 1/r. -/
theorem narrowOutcomes : Obligations.NarrowOutcomes := by
  intro e a s _ h
  have hr : (0 : ℚ) < s.range := by exact_mod_cast range_pos h
  simp only [← range_cast h]
  refine ⟨narrow_of_p_zero, narrow_of_overflow, fun hp hh hlt => ?_, fun hh hle => ?_⟩
  · rw [narrow_of_fits hp hh, if_pos ((narrowedLo_eq_narrowedHi_iff h).mpr hlt)]
  · have hp : e.p a ≠ 0 := ((one_div_pos.mpr hr).trans_le hle).ne'
    rw [narrow_of_fits hp hh, if_neg fun heq => hle.not_gt ((narrowedLo_eq_narrowedHi_iff h).mp heq)]
    rfl

/-! ## F rises -/

section
variable {w : Nat} {t : Table} {h : Context} (ht : t.Sound Config.build w)
include ht

/-- On a sound table F rises strictly over 0..256 (R112, R113). -/
theorem estimate_f_strictMonoOn : StrictMonoOn (estimate Config.build t h).f (Set.Iic 256) := by
  refine strictMonoOn_of_lt_succ Set.ordConnected_Iic fun n _ _ hn => ?_
  have hn : n < 256 := hn
  have hstep := estimate_f_succ (b := Config.build) t h rfl (BitVec.ofNat 8 n)
  have hpos := estimate_p_pos (b := Config.build) (h := h) rfl ht (BitVec.ofNat 8 n)
  rw [BitVec.toNat_ofNat, Nat.mod_eq_of_lt hn] at hstep
  show (estimate Config.build t h).f n < (estimate Config.build t h).f (n + 1)
  linarith

theorem estimate_f_mono {m n : Nat} (hmn : m ≤ n) (hn : n ≤ 256) :
    (estimate Config.build t h).f m ≤ (estimate Config.build t h).f n :=
  (estimate_f_strictMonoOn ht).monotoneOn (hmn.trans hn) hn hmn

/-- Locate's symbol is the largest one whose F is at most x, and x lies in its part of F where x < F[256] (R137). -/
theorem locate_largest {s : State} {a : Symbol} (hl : locate Config.build (estimate Config.build t h) s = .ok a) :
    (∀ c : Symbol, (estimate Config.build t h).f c.toNat ≤ scaledValue Config.build s → c.toNat ≤ a.toNat) ∧
    (scaledValue Config.build s < (estimate Config.build t h).f 256 →
      scaledValue Config.build s < (estimate Config.build t h).f a.toNat + (estimate Config.build t h).p a) := by
  obtain ⟨-, hlast⟩ := locate_bucket hl scaledValue_nonneg
  constructor
  · intro c hc
    by_contra hac
    exact (hlast c.toNat (not_le.mp hac) c.isLt).not_ge hc
  · intro hx
    rw [← estimate_f_succ t h rfl a]
    rcases Nat.lt_or_ge (a.toNat + 1) 256 with ha | ha
    · exact hlast _ (Nat.lt_succ_self _) ha
    · exact hx.trans_le (estimate_f_mono ht ha a.isLt)

end

/-- Locate finds a symbol unless VALUE < LO (R137). -/
theorem locate_isOk {b : Config.Build} {e : Estimate} {s : State} (hv : s.lo.toNat ≤ s.value.toNat) :
    ∃ a, locate b e s = .ok a := ⟨_, if_neg hv.not_gt⟩

/-- F[a] is at most x exactly where the new LO is at most VALUE (R133, R137). -/
theorem f_le_scaledValue_iff {e : Estimate} {a : Symbol} {s : State} (h : s.lo.toNat ≤ s.hi.toNat)
    (hv : s.lo.toNat ≤ s.value.toNat) :
    e.f a.toNat ≤ scaledValue Config.build s ↔ narrowedLo Config.build e a s ≤ s.value.toNat := by
  refine ⟨narrowedLo_le_value h hv, fun hle => ?_⟩
  have hr : (0 : ℚ) < s.range := by exact_mod_cast range_pos h
  rw [narrowedLo_build] at hle
  rw [scaledValue_build, le_div_iff₀' hr]
  exact Nat.ceil_le.mp (by omega)

theorem toNat_succ_symbol {a : Symbol} (ha : a.toNat < 255) : (a + 1).toNat = a.toNat + 1 := by
  bv_omega

/-- `ceil(x) + floor(y)` is `ceil(x + y)` or one less: neighbours share one integer or abut (R133). -/
theorem ceil_add_floor_cases {x y : ℚ} (hx : 0 ≤ x) (hy : 0 ≤ y) :
    ⌈x⌉₊ + ⌊y⌋₊ + 1 = ⌈x + y⌉₊ ∨ ⌈x⌉₊ + ⌊y⌋₊ = ⌈x + y⌉₊ := by
  have hle : ⌈x + y⌉₊ ≤ ⌈x⌉₊ + ⌊y⌋₊ + 1 := by
    rw [Nat.ceil_le]; push_cast; linarith [Nat.le_ceil x, Nat.lt_floor_add_one y]
  have hge : ⌈x⌉₊ + ⌊y⌋₊ ≤ ⌈x + y⌉₊ := by
    rw [← Nat.ceil_add_natCast hx]; exact Nat.ceil_mono (by linarith [Nat.floor_le hy])
  omega

/-! ## The obligations -/

/-- Settles O41: `F[a+1] = F[a] + P[a]`, and F is positive past symbol 0. -/
theorem adjacentIntervalsAbut : Obligations.AdjacentIntervalsAbut := by
  intro w t h a s ht hs e
  have hf0 : e.f 0 = 0 := estimate_f_zero t h
  constructor
  · intro ha
    have hf : 0 ≤ e.f a.toNat := hf0 ▸ estimate_f_mono ht (Nat.zero_le _) a.isLt.le
    have hp : 0 ≤ e.p a := (estimate_p_pos rfl ht a).le
    have hsum : (s.range : ℚ) * e.f (a + 1).toNat = s.range * e.f a.toNat + s.range * e.p a := by
      rw [toNat_succ_symbol ha, estimate_f_succ t h rfl a, mul_add]
    rw [narrowedHi_build, narrowedLo_build, narrowedLo_build, hsum]
    have := ceil_add_floor_cases (mul_nonneg s.range.cast_nonneg hf) (mul_nonneg s.range.cast_nonneg hp)
    omega
  · rw [narrowedLo_eq_lo_iff hs, ← hf0, (estimate_f_strictMonoOn ht).le_iff_le a.isLt.le (Nat.zero_le 256),
      Nat.le_zero]
    exact BitVec.toNat_inj (y := 0)

/-- Settles O42: the largest symbol with F at most x, alone in its part of F because F rises. -/
theorem locateFindsTheBucket : Obligations.LocateFindsTheBucket := by
  intro w t h s ht hs e x
  refine ⟨fun hv => if_pos hv, fun hv => ?_⟩
  have hx : scaledValue Config.build s = x := scaledValue_eq hs hv
  obtain ⟨a, hl⟩ := locate_isOk (b := Config.build) (e := e) hv
  obtain ⟨hfa, -⟩ := locate_bucket hl scaledValue_nonneg
  obtain ⟨hmax, hin⟩ := locate_largest ht hl
  rw [hx] at hfa hmax hin
  refine ⟨a, hl, hfa, hmax, fun hlt => ⟨hin hlt, fun c hc hxc => ?_⟩⟩
  rcases (hmax c hc).eq_or_lt with hca | hca
  · exact BitVec.eq_of_toNat_eq hca
  · rw [← estimate_f_succ t h rfl c] at hxc
    exact absurd ((estimate_f_mono ht hca a.isLt.le).trans hfa) hxc.not_ge

/-- Settles O43: F[a] ≤ x gives LO ≤ VALUE, and x < F[a] + P[a] gives VALUE ≤ HI. -/
theorem decodeNarrowKeepsValueInside : Obligations.DecodeNarrowKeepsValueInside := by
  intro w tb h s t a ht hs hl hn
  have hv := (locate_ok hl).1
  obtain ⟨-, hlo, hhi, -, rfl⟩ := narrow_ok hn
  obtain ⟨hfa, -⟩ := locate_bucket hl scaledValue_nonneg
  rw [← scaledValue_eq hs hv, State.setInterval_lo, State.setInterval_hi, State.setInterval_value, toNat_ofNat_reg hlo,
    toNat_ofNat_reg hhi]
  exact ⟨rfl, narrowedLo_le_value hs hv hfa, fun hx => value_le_narrowedHi hs ((locate_largest ht hl).2 hx)⟩

/-- Settles O44: VALUE's place says F[a] ≤ x < F[a + 1], and the located symbol is the largest with F at most x. -/
theorem locateInvertsNarrow : Obligations.LocateInvertsNarrow := by
  intro w t h s a ht hs e hlo hnext
  have hv : s.lo.toNat ≤ s.value.toNat := (Nat.le_add_right _ _).trans hlo
  obtain ⟨c, hl⟩ := locate_isOk (b := Config.build) (e := e) hv
  have hac : a.toNat ≤ c.toNat := (locate_largest ht hl).1 a ((f_le_scaledValue_iff hs hv).mpr hlo)
  obtain ⟨hfc, -⟩ := locate_bucket hl scaledValue_nonneg
  have hca : c.toNat ≤ a.toNat := by
    by_contra hlt
    have ha : a.toNat < 255 := by have := c.isLt; omega
    refine (hnext ha).not_ge ((f_le_scaledValue_iff hs hv).mp ?_)
    rw [toNat_succ_symbol ha]
    exact (estimate_f_mono ht (by omega) c.isLt.le).trans hfc
  rw [hl, BitVec.eq_of_toNat_eq (le_antisymm hca hac)]

end Sys2Proof.Machine
end

section
/-! PROOF. The obligations on Emit, Absorb and StraddleInc (R145, R147, R151), and on what a pass of RenormEnc emits
(R140 to R143). -/

namespace Sys2Proof.Machine

variable {s t u : State} {v : Bool} {c : RenormCase} {n m : Nat} {g : Nat → Bool}

/-! ## Counters -/

/-- One more, written to a 32-bit counter, is the word's successor. -/
theorem ofNat_toNat_succ (x : Word) : BitVec.ofNat 32 (x.toNat + 1) = x + 1 := by
  rw [BitVec.ofNat_add, BitVec.ofNat_toNat, BitVec.setWidth_eq]; rfl

theorem setCursor_succ (s : State) : s.setCursor (s.cursor.toNat + 1) = { s with cursor := s.cursor + 1 } := by
  rw [State.setCursor, ofNat_toNat_succ]

theorem setStraddle_succ (s : State) : s.setStraddle (s.straddle.toNat + 1) = { s with straddle := s.straddle + 1 } := by
  rw [State.setStraddle, ofNat_toNat_succ]

/-- Settles O46: the branches of Absorb. -/
theorem absorbReadsStreamThenPadding : Obligations.AbsorbReadsStreamThenPadding := by
  intro s
  simp only [absorb, setCursor_succ, Config.PREC_eq]
  refine ⟨fun h => if_pos h, fun h h' => ?_, fun h => ?_⟩
  · rw [if_neg h.not_gt, if_pos h']
  · rw [if_neg (by omega), if_neg h.not_gt]

/-- Settles O47: the branches of StraddleInc. -/
theorem straddleIncAddsOneOrFaults : Obligations.StraddleIncAddsOneOrFaults := by
  intro s
  rw [straddleInc, setStraddle_succ]
  exact ⟨fun h => if_pos h, fun h => if_neg h⟩

/-- A completed StraddleInc counts one more; STRADDLE does not wrap (R151). -/
theorem straddleInc_straddle (h : straddleInc Config.build s = .ok t) :
    t.straddle.toNat = s.straddle.toNat + 1 := by
  obtain ⟨hne, rfl⟩ := straddleInc_ok h
  rw [Config.build_straddleW] at hne
  rw [State.setStraddle_straddle, BitVec.toNat_ofNat]
  have := s.straddle.isLt
  omega

/-! ## Appending to the output stream -/

/-- t's output stream is s's with n bits appended, bit i of it being `g i`, within OBUF (R55, R145). -/
structure State.Appends (n : Nat) (g : Nat → Bool) (s t : State) : Prop where
  len  : t.outLen.toNat = s.outLen.toNat + n
  room : t.outLen.toNat ≤ 524288
  bits : ∀ i, t.obit i = if s.outLen.toNat ≤ i ∧ i < s.outLen.toNat + n then g i else s.obit i

theorem State.Appends.refl (g : Nat → Bool) (hs : s.outLen.toNat ≤ 524288) : s.Appends 0 g s where
  len := rfl
  room := hs
  bits i := by rw [if_neg (by omega)]

theorem State.Appends.trans (h : s.Appends m g u) (h' : u.Appends n g t) : s.Appends (m + n) g t where
  len := by rw [h'.len, h.len, Nat.add_assoc]
  room := h'.room
  bits i := by
    rw [h'.bits, h.bits, h.len, ← ite_or]
    exact if_congr (by omega) rfl rfl

/-- An update that leaves OUT_LEN and OBUF alone appends nothing more. -/
theorem State.Appends.congr (h : s.Appends n g u) (hlen : t.outLen = u.outLen) (hobuf : t.obuf = u.obuf)
    (hdraw : t.obufDraw = u.obufDraw) : s.Appends n g t where
  len := hlen ▸ h.len
  room := hlen ▸ h.room
  bits i := by rw [obit_congr hobuf hdraw, h.bits]

/-- Emit appends its bit (R145). -/
theorem appends_setOutLen_putObit (hs : s.outLen.toNat < 524288) (hg : g s.outLen.toNat = v) :
    s.Appends 1 g ((s.putObit s.outLen.toNat v).setOutLen (s.outLen.toNat + 1)) := by
  have hlen : (BitVec.ofNat 20 (s.outLen.toNat + 1)).toNat = s.outLen.toNat + 1 := by
    rw [BitVec.toNat_ofNat]; omega
  refine ⟨hlen, hlen.trans_le hs, fun i => ?_⟩
  rw [obit_congr (State.setOutLen_obuf ..) (State.setOutLen_obufDraw ..), obit_putObit]
  by_cases hi : i = s.outLen.toNat
  · rw [if_pos hi, if_pos (by omega), hi, hg]
  · rw [if_neg hi, if_neg (by omega)]

theorem emit_appends (hs : s.outLen.toNat ≤ 524288) (h : emit Config.build v s = .ok t) (hg : g s.outLen.toNat = v) :
    s.Appends 1 g t := by
  obtain ⟨hne, rfl⟩ := emit_ok h
  exact appends_setOutLen_putObit (lt_of_le_of_ne hs hne) hg

theorem emitMany_appends (hs : s.outLen.toNat ≤ 524288) (h : emitMany Config.build v n s = .ok t)
    (hg : ∀ i, s.outLen.toNat ≤ i → g i = v) : s.Appends n g t := by
  induction n generalizing s with
  | zero => injection h with h; exact h ▸ .refl g hs
  | succ n ih =>
    obtain ⟨u, h₁, h₂⟩ := emitMany_succ_ok h
    have hu := emit_appends hs h₁ (hg _ le_rfl)
    rw [Nat.add_comm]
    exact hu.trans (ih hu.room h₂ fun i hi => hg i (by have := hu.len; omega))

/-- The bits of an Emit(v) at position k with the owed ones after it: v, then its complement (R140, R141, R148). -/
def owedBits (v : Bool) (k i : Nat) : Bool := if i = k then v else !v

theorem emitOwed_appends (hs : s.outLen.toNat ≤ 524288) (h : emitOwed Config.build v s = .ok t) :
    s.Appends (1 + s.straddle.toNat) (owedBits v s.outLen.toNat) t := by
  obtain ⟨u, h₁, h₂⟩ := emitOwed_ok h
  have hu : s.Appends 1 (owedBits v s.outLen.toNat) u := emit_appends hs h₁ (if_pos rfl)
  exact hu.trans (emitMany_appends hu.room h₂ fun i hi => if_neg (by have := hu.len; omega))

/-- Settles O45: Emit's two branches, and its effect on bits and bytes. -/
theorem emitAppendsOneBit : Obligations.EmitAppendsOneBit := by
  intro s v hs
  refine ⟨fun h => if_pos h, fun h => ⟨_, if_neg h, rfl, ?_⟩⟩
  obtain ⟨hlen, -, -⟩ := appends_setOutLen_putObit (g := fun _ => v) (lt_of_le_of_ne hs h) rfl
  refine ⟨hlen, fun i => ?_, fun a ha => ?_⟩
  · rw [obit_congr (State.setOutLen_obuf ..) (State.setOutLen_obufDraw ..), obit_putObit]
  · rw [obufByte_congr (State.setOutLen_obuf ..) (State.setOutLen_obufDraw ..), obufByte_putObit, if_neg ha.symm]

/-! ## A pass of RenormEnc -/

/-- What a pass does to the output: LOW and HIGH settle what is owed, MID owes one bit more (R140 to R142). -/
def RenormCase.Output (c : RenormCase) (s t : State) : Prop :=
  (c ≠ .mid ∧ t.straddle = 0 ∧
    s.Appends (1 + s.straddle.toNat) (owedBits (decide (c = .high)) s.outLen.toNat) t) ∨
  (c = .mid ∧ t.straddle.toNat = s.straddle.toNat + 1 ∧ s.Appends 0 (fun _ => false) t)

theorem caseEmit_output (hs : s.outLen.toNat ≤ 524288) (h : caseEmit Config.build c s = .ok t) : c.Output s t := by
  rcases caseEmit_ok h with ⟨rfl, u, h₁, rfl⟩ | ⟨rfl, u, h₁, rfl⟩ | ⟨rfl, h₁⟩
  · exact .inl ⟨by decide, rfl, (emitOwed_appends hs h₁).congr rfl rfl rfl⟩
  · exact .inl ⟨by decide, rfl, (emitOwed_appends hs h₁).congr rfl rfl rfl⟩
  · have hst := straddleInc_straddle h₁
    obtain ⟨-, rfl⟩ := straddleInc_ok h₁
    exact .inr ⟨rfl, hst, (State.Appends.refl _ hs).congr rfl rfl rfl⟩

theorem renormEncPass_output (hs : s.outLen.toNat ≤ 524288) (h : renormEncPass Config.build c s = .ok t) :
    c.Output s t := by
  obtain ⟨u, h₁, h₂⟩ := renormEncPass_ok h
  obtain ⟨-, -, rfl⟩ := stretchEnc_ok h₂
  rcases caseEmit_output hs h₁ with ⟨hc, h0, ha⟩ | ⟨hc, h0, ha⟩
  · exact .inl ⟨hc, h0, ha.congr rfl rfl rfl⟩
  · exact .inr ⟨hc, h0, ha.congr rfl rfl rfl⟩

/-- A pass emits or owes one bit more, and stays in OBUF (R153). -/
theorem RenormCase.Output.owed (h : c.Output s t) :
    t.outLen.toNat + t.straddle.toNat = s.outLen.toNat + s.straddle.toNat + 1 ∧ t.outLen.toNat ≤ 524288 := by
  rcases h with ⟨-, h0, ha⟩ | ⟨-, h1, ha⟩
  · refine ⟨?_, ha.room⟩
    have : t.straddle.toNat = 0 := by rw [h0]; rfl
    rw [ha.len]; omega
  · refine ⟨?_, ha.room⟩
    rw [ha.len, h1]; omega

/-- What a completed pass of either renormalizer does to the interval (R143). -/
structure State.Stretched (off : Nat) (s t : State) : Prop where
  lo : t.lo.toNat = 2 * (s.lo.toNat - off)
  hi : t.hi.toNat = 2 * (s.hi.toNat - off) + 1

theorem renormEncPass_stretched (h : renormEncPass Config.build c s = .ok t) : s.Stretched c.offset t := by
  obtain ⟨u, h₁, h₂⟩ := renormEncPass_ok h
  obtain ⟨hlo, hhi, rfl⟩ := stretchEnc_ok h₂
  rw [(caseEmit_same h₁).eq] at hlo hhi ⊢
  exact ⟨toNat_ofNat_reg hlo, toNat_ofNat_reg hhi⟩

theorem stretchDec_stretched {off : Nat} (h : stretchDec Config.build off s = .ok t) : s.Stretched off t := by
  obtain ⟨v, u, -, hlo, hhi, -, rfl⟩ := stretchDec_ok h
  exact ⟨toNat_ofNat_reg hlo, toNat_ofNat_reg hhi⟩

/-- Settles O48: the pass's output, read at the bits before OUT_LEN, at it and after it. -/
theorem renormPassEmitsOwedBits : Obligations.RenormPassEmitsOwedBits := by
  intro c s t hs _ hp
  obtain ⟨hlo, hhi⟩ := renormEncPass_stretched hp
  refine ⟨hlo, hhi, ?_⟩
  rcases renormEncPass_output hs hp with ⟨hc, h0, ha⟩ | ⟨hc, h1, ha⟩
  · refine ⟨fun i hi => ?_, fun _ => ⟨h0, ?_, ?_, fun i hi hi' => ?_⟩, fun hm => absurd hm hc⟩
    · rw [ha.bits, if_neg (by omega)]
    · rw [ha.len, Nat.add_assoc]
    · rw [ha.bits, if_pos (by omega), owedBits, if_pos rfl]
    · rw [ha.bits, if_pos (by rw [ha.len] at hi'; omega), owedBits, if_neg hi.ne']
      cases c with
      | low => rfl
      | high => rfl
      | mid => exact absurd rfl hc
  · have hbits : ∀ i, t.obit i = s.obit i := fun i => by rw [ha.bits, if_neg (by omega)]
    exact ⟨fun i _ => hbits i, fun hm => absurd hc hm, fun _ => ⟨h1, BitVec.eq_of_toNat_eq ha.len, hbits⟩⟩

end Sys2Proof.Machine
end

section
/-! PROOF. The obligations on the renormalizers' loops (R139, R143, R144, R146, R153): one loop over the passes of either
mode, what every pass of it does to the interval, and what n passes add up to. -/

namespace Sys2Proof.Machine

/-! ## One stretch -/

/-- A pass offsets by at most LO, so it doubles the range and keeps LO at most HI (R143). -/
theorem State.Stretched.range {s t : State} {c : RenormCase} (h : s.Stretched c.offset t)
    (hc : renormCase s.lo.toNat s.hi.toNat = some c) (hs : s.lo.toNat ≤ s.hi.toNat) :
    t.range = 2 * s.range ∧ t.lo.toNat ≤ t.hi.toNat := by
  have hoff := offset_le hc
  unfold State.range
  rw [h.lo, h.hi]
  omega

/-- A pass keeps HI at most ONE (R139 to R143). -/
theorem State.Stretched.hi_le_one {s t : State} {c : RenormCase} (h : s.Stretched c.offset t)
    (hc : renormCase s.lo.toNat s.hi.toNat = some c) (hs : s.hi.toNat ≤ 4294967295) : t.hi.toNat ≤ 4294967295 := by
  rw [h.hi]
  rcases renormCase_some hc with ⟨rfl, hlow⟩ | ⟨rfl, -⟩ | ⟨rfl, -, -, -, hmid⟩
  · rw [offset_low]; omega
  · rw [offset_high]; omega
  · rw [offset_mid]; omega

/-- No pass brings LO back below 2^32: it subtracts at most HALF (R140 to R143). -/
theorem State.Stretched.lo_above_one {s t : State} {c : RenormCase} (h : s.Stretched c.offset t)
    (hs : 4294967295 < s.lo.toNat) : 4294967295 < t.lo.toNat := by
  have hoff : c.offset ≤ 2147483648 := by cases c <;> simp
  rw [h.lo]; omega

/-! ## The loop -/

/-- The loop of R139 and R146 over the passes of one mode, with a bound on the passes. -/
def renormLoop (pass : RenormCase → State → Except FaultCode State) : Nat → State → Except FaultCode State
  | 0, _ => .error .intervalOverflow
  | n + 1, s =>
    match renormCase s.lo.toNat s.hi.toNat with
    | none => .ok s
    | some c => (pass c s).bind (renormLoop pass n)

theorem renormEncLoop_eq (b : Config.Build) (n : Nat) (s : State) :
    renormEncLoop b n s = renormLoop (renormEncPass b) n s := by
  induction n generalizing s with
  | zero => rfl
  | succ n ih =>
    rw [renormEncLoop, renormLoop]
    cases renormCase s.lo.toNat s.hi.toNat with
    | none => rfl
    | some c =>
      cases hp : renormEncPass b c s with
      | error e => simp only [hp]; rfl
      | ok u => simp only [hp]; exact ih u

theorem renormDecLoop_eq (b : Config.Build) (n : Nat) (s : State) :
    renormDecLoop b n s = renormLoop (fun c => stretchDec b c.offset) n s := by
  induction n generalizing s with
  | zero => rfl
  | succ n ih =>
    rw [renormDecLoop, renormLoop]
    cases renormCase s.lo.toNat s.hi.toNat with
    | none => rfl
    | some c =>
      cases hp : stretchDec b c.offset s with
      | error e => simp only [hp]; rfl
      | ok u => simp only [hp]; exact ih u

theorem renormEnc_eq (s : State) : renormEnc Config.build s = renormLoop (renormEncPass Config.build) 65 s :=
  renormEncLoop_eq _ _ s

theorem renormDec_eq (s : State) :
    renormDec Config.build s = renormLoop (fun c => stretchDec Config.build c.offset) 65 s :=
  renormDecLoop_eq _ _ s

section
variable {pass : RenormCase → State → Except FaultCode State}

/-- What each pass carries on to the next number of passes, a completed loop has for some number of them, and it stops on
a settled interval (R144). -/
theorem renormLoop_induction {P : Nat → State → Prop}
    (step : ∀ {k s t c}, P k s → renormCase s.lo.toNat s.hi.toNat = some c → pass c s = .ok t → P (k + 1) t)
    {n k : Nat} {s t : State} (hs : P k s) (h : renormLoop pass n s = .ok t) :
    ∃ m, P m t ∧ Settled t.lo.toNat t.hi.toNat := by
  induction n generalizing k s with
  | zero => injection h
  | succ n ih =>
    rw [renormLoop] at h
    cases hc : renormCase s.lo.toNat s.hi.toNat with
    | none =>
      rw [hc] at h
      injection h with h
      exact ⟨k, h ▸ hs, settled_iff.mpr (h ▸ hc)⟩
    | some c =>
      rw [hc] at h
      cases hp : pass c s with
      | error e => simp only [hp] at h; injection h
      | ok u => simp only [hp] at h; exact ih (step hs hc hp) h

variable (hpass : ∀ {c s t}, pass c s = .ok t → s.Stretched c.offset t)
include hpass

/-- The bound does not count where k doublings of the range are more than a register holds (R144). -/
theorem renormLoop_eq_of_le {k n : Nat} {s : State} (hs : s.lo.toNat ≤ s.hi.toNat) (hk : 2 ^ 64 < 2 ^ k * s.range)
    (hn : k ≤ n) : renormLoop pass n s = renormLoop pass k s := by
  induction k generalizing n s with
  | zero =>
    have := s.hi.isLt
    unfold State.range at hk
    omega
  | succ k ih =>
    obtain ⟨n, rfl⟩ := Nat.exists_eq_add_one_of_ne_zero (Nat.ne_of_gt (Nat.lt_of_lt_of_le k.succ_pos hn))
    rw [renormLoop, renormLoop]
    cases hc : renormCase s.lo.toNat s.hi.toNat with
    | none => rfl
    | some c =>
      cases hp : pass c s with
      | error e => simp only [hp]; rfl
      | ok u =>
        obtain ⟨hrange, hle⟩ := (hpass hp).range hc hs
        simp only [hp]
        refine ih hle ?_ (Nat.le_of_succ_le_succ hn)
        rwa [hrange, ← mul_assoc, ← pow_succ]

/-- A loop that starts above ONE does not end on a settled interval, so it ends in a fault (R144). -/
theorem lo_le_one_of_renormLoop_ok {n : Nat} {s t : State} (h : renormLoop pass n s = .ok t) :
    s.lo.toNat ≤ 4294967295 := by
  by_contra hlo
  obtain ⟨-, ht, hset⟩ := renormLoop_induction (P := fun _ s => 4294967295 < s.lo.toNat)
    (fun hs _ hp => (hpass hp).lo_above_one hs) (k := 0) (not_le.mp hlo) h
  have := hset.1
  rw [Config.HALF_eq] at this
  omega

end

/-- Settles O51: 65 doublings of a range of 1 or more exceed the register. -/
theorem renormBoundIsNeverReached : Obligations.RenormBoundIsNeverReached := by
  intro s n hs hn
  have hrange : 2 ^ 64 < 2 ^ 65 * s.range := by have := range_pos hs; omega
  rw [renormEncLoop_eq, renormEnc_eq, renormDecLoop_eq, renormDec_eq]
  exact ⟨renormLoop_eq_of_le renormEncPass_stretched hs hrange hn,
    renormLoop_eq_of_le stretchDec_stretched hs hrange hn⟩

/-! ## The symbol commands above ONE -/

/-- Narrow and Observe leave LO at the narrowed one (R133, R135). -/
theorem codeSymbol_lo {e : Estimate} {a : Symbol} {s t : State} (h : codeSymbol Config.build e a s = .ok t) :
    t.lo.toNat = narrowedLo Config.build e a s := by
  obtain ⟨hn, -, ht⟩ := codeSymbol_frame h
  obtain ⟨-, hlo, -⟩ := narrow_ok hn
  rw [ht]
  exact toNat_ofNat_reg hlo

/-- Settles O60: LO stays above ONE in every pass, and a settled interval has LO below HALF. -/
theorem narrowedLoAboveOneNeverCompletes : Obligations.NarrowedLoAboveOneNeverCompletes := by
  refine fun s t => ⟨fun a h => ?_, fun h => ?_⟩
  · obtain ⟨u, v, hc, hr, -⟩ := encSymRule_ok (completes_rule h).2
    rw [← codeSymbol_lo hc]
    exact lo_le_one_of_renormLoop_ok renormEncPass_stretched ((renormEnc_eq u).symm.trans hr)
  · obtain ⟨a, u, v, -, hc, hr, rfl⟩ := decSymRule_ok (completes_rule h).2
    rw [show (v.setSym a).countSymbol.sym = a from rfl, ← codeSymbol_lo hc]
    exact lo_le_one_of_renormLoop_ok stretchDec_stretched ((renormDec_eq u).symm.trans hr)

/-! ## RenormEnc's account -/

/-- Where RenormEnc stands after n stretches from s (R143, R153). -/
structure State.Renormed (s : State) (n : Nat) (u : State) : Prop where
  ordered : u.lo.toNat ≤ u.hi.toNat
  range   : u.range = 2 ^ n * s.range
  room    : u.outLen.toNat ≤ 524288
  owed    : u.outLen.toNat + u.straddle.toNat = s.outLen.toNat + s.straddle.toNat + n
  le_one  : s.hi.toNat ≤ 4294967295 → u.hi.toNat ≤ 4294967295

theorem State.Renormed.pass {s u t : State} {n : Nat} {c : RenormCase} (h : s.Renormed n u)
    (hc : renormCase u.lo.toNat u.hi.toNat = some c) (hp : renormEncPass Config.build c u = .ok t) :
    s.Renormed (n + 1) t := by
  have hst := renormEncPass_stretched hp
  obtain ⟨hrange, hle⟩ := hst.range hc h.ordered
  obtain ⟨howed, hroom⟩ := (renormEncPass_output h.room hp).owed
  refine ⟨hle, ?_, hroom, ?_, fun h1 => hst.hi_le_one hc (h.le_one h1)⟩
  · rw [hrange, h.range, pow_succ', mul_assoc]
  · rw [howed, h.owed, Nat.add_assoc]

/-- An interval of two integers or more within 0..ONE is stretched at most 31 times (R144). -/
theorem State.Renormed.le_31 {s u : State} {n : Nat} (h : s.Renormed n u) (hlt : s.lo.toNat < s.hi.toNat)
    (h1 : s.hi.toNat ≤ 4294967295) : n ≤ 31 := by
  have hu : 2 ^ n * s.range ≤ 2 ^ 32 := by
    have := h.le_one h1
    rw [← h.range]; unfold State.range; omega
  have hs : 2 ≤ s.range := by unfold State.range; omega
  by_contra hn
  have := Nat.mul_le_mul (Nat.pow_le_pow_right (by decide : 0 < 2) (by omega : 32 ≤ n)) hs
  omega

/-- Settles O49: the account of n passes, on the settled interval. -/
theorem renormEncAccountsForBits : Obligations.RenormEncAccountsForBits := by
  intro s t hs hroom h
  rw [renormEnc_eq] at h
  have h0 : s.Renormed 0 s := ⟨hs, by rw [pow_zero, one_mul], hroom, rfl, id⟩
  obtain ⟨n, hn, hset⟩ := renormLoop_induction State.Renormed.pass h0 h
  exact ⟨hset, hset.lt.2, n, hn.range, hn.owed, hn.le_31⟩

/-! ## RenormDec's account -/

/-- Where RenormDec stands after n stretches from d, the bits absorbed making up x, the first one the most significant
(R146, R147, R153). -/
structure State.Absorbed (d : State) (n x : Nat) (u : State) : Prop where
  ordered : u.lo.toNat ≤ u.hi.toNat
  range   : u.range = 2 ^ n * d.range
  runLen  : u.runLen = d.runLen
  ibit    : u.ibit = d.ibit
  cursor  : u.cursor.toNat = d.cursor.toNat + n
  lt      : x < 2 ^ n
  bits    : ∀ j < n, x.testBit (n - 1 - j) =
              (decide (d.cursor.toNat + j < d.runLen.toNat) && d.ibit (d.cursor.toNat + j))
  value   : u.value.toNat = u.lo.toNat + 2 ^ n * (d.value.toNat - d.lo.toNat) + x
  inside  : d.value.toNat ≤ d.hi.toNat → u.value.toNat ≤ u.hi.toNat

/-- What a completed stretch does to CURSOR and VALUE: it folds in the absorbed bit v (R146, R147). -/
theorem stretchDec_absorbs {off : Nat} {s t : State} (h : stretchDec Config.build off s = .ok t) :
    t.runLen = s.runLen ∧ t.ibit = s.ibit ∧ t.cursor.toNat = s.cursor.toNat + 1 ∧
      t.value.toNat = 2 * (s.value.toNat - off) +
        (decide (s.cursor.toNat < s.runLen.toNat) && s.ibit s.cursor.toNat).toNat := by
  obtain ⟨v, u, hu, -, -, hv, rfl⟩ := stretchDec_ok h
  obtain ⟨hcur, rfl, rfl⟩ := absorb_ok hu
  rw [Config.PREC_eq] at hcur
  have hbit : (if s.cursor.toNat < s.runLen.toNat then s.ibit s.cursor.toNat else false) =
      (decide (s.cursor.toNat < s.runLen.toNat) && s.ibit s.cursor.toNat) := by
    by_cases hlt : s.cursor.toNat < s.runLen.toNat <;> simp [hlt]
  refine ⟨rfl, rfl, ?_, hbit ▸ toNat_ofNat_reg hv⟩
  show (BitVec.ofNat 32 (s.cursor.toNat + 1)).toNat = _
  rw [BitVec.toNat_ofNat, Nat.mod_eq_of_lt]
  have := s.runLen.isLt
  omega

theorem State.Absorbed.pass {d u t : State} {n x : Nat} {c : RenormCase} (h : d.Absorbed n x u)
    (hc : renormCase u.lo.toNat u.hi.toNat = some c) (hp : stretchDec Config.build c.offset u = .ok t) :
    ∃ x, d.Absorbed (n + 1) x t := by
  have hst := stretchDec_stretched hp
  have hoff := offset_le hc
  obtain ⟨hrange, hle⟩ := hst.range hc h.ordered
  obtain ⟨hrun, hibit, hcur, hval⟩ := stretchDec_absorbs hp
  rw [h.cursor, h.runLen, h.ibit] at hval
  set v := decide (d.cursor.toNat + n < d.runLen.toNat) && d.ibit (d.cursor.toNat + n) with hv
  have hv1 := Bool.toNat_le v
  have hx := h.lt
  have hvalue := h.value
  refine ⟨Nat.bit v x, hle, ?_, hrun.trans h.runLen, hibit.trans h.ibit, ?_, ?_, fun j hj => ?_, ?_, fun hin => ?_⟩
  · rw [hrange, h.range, pow_succ', mul_assoc]
  · rw [hcur, h.cursor, Nat.add_assoc]
  · rw [Nat.bit_val, Nat.pow_succ]; omega
  · rcases Nat.lt_succ_iff_lt_or_eq.mp hj with hj | rfl
    · rw [← h.bits j hj, show n + 1 - 1 - j = (n - 1 - j) + 1 by omega, Nat.testBit_bit_succ]
    · rw [Nat.add_sub_cancel, Nat.sub_self, Nat.testBit_bit_zero]
  · rw [hval, hst.lo, Nat.bit_val, pow_succ', mul_assoc]; omega
  · have := h.inside hin
    rw [hval, hst.hi]; omega

/-- Settles O50: the account of n stretches, and RenormEnc's interval from the same passes. -/
theorem renormDecMirrorsRenormEnc : Obligations.RenormDecMirrorsRenormEnc := by
  intro d d' hd hv h
  have h0 : ∃ x, d.Absorbed 0 x d :=
    ⟨0, hd, by rw [pow_zero, one_mul], rfl, rfl, rfl, one_pos, fun _ hj => absurd hj (Nat.not_lt_zero _),
      by omega, id⟩
  obtain ⟨n, ⟨x, hx⟩, hset⟩ := renormLoop_induction (P := fun n u => ∃ x, d.Absorbed n x u)
    (fun ⟨_, hx⟩ hc hp => hx.pass hc hp) h0 ((renormDec_eq d).symm.trans h)
  refine ⟨hset, ⟨n, x, hx.range, hx.cursor, hx.lt, hx.bits, hx.value⟩, hx.inside, fun s s' hlo hhi hs => ?_⟩
  obtain ⟨hlo', hhi'⟩ := renormLoops_interval hlo hhi hs h
  exact ⟨hlo'.symm, hhi'.symm⟩

end Sys2Proof.Machine
end

section
/-! PROOF. The obligations on an executed word (R170, R171), on the commands that do nothing or start a run (R172 to R174),
and on the host's writes (R179). -/

namespace Sys2Proof.Machine

variable {s t : State} {i : Instr} {w : Word}

/-! ## Executing a word -/

theorem executeWord_of_ok (h : decodeWord w = .ok i) (s : State) : executeWord w s = exec i s := by
  rw [executeWord, h]

theorem coreStep_of_pend (hp : s.pend = some w) (hx : executeWord w s = .next t) : coreStep s = .next t.retire := by
  rw [coreStep, hp]
  exact congrArg retireOutcome hx

/-- A command that R171's table allows runs its rule. -/
theorem exec_of_ok (hl : legality i s.runState s.mode = .ok) (h : ruleOf i s = .ok t) : exec i s = .next t := by
  rw [exec_eq, hl, issue_ok_of_ok h]

/-- A fault inside its rule is raised (R216). -/
theorem exec_of_error {c : FaultCode} (hl : legality i s.runState s.mode = .ok) (h : ruleOf i s = .error c) :
    exec i s = .next (s.raise c) := by
  rw [exec_eq, hl, issue_ok_of_error h]

theorem exec_of_illegal (hl : legality i s.runState s.mode = .illegal) :
    exec i s = .next (s.raise .illegalCommand) := by
  rw [exec_eq, hl, issue_illegal]

theorem exec_of_ignored (hl : legality i s.runState s.mode = .ignored) : exec i s = .next s := by
  rw [exec_eq, hl, issue_ignored]

/-- FAULTED ignores every command but NOP and the INITs (R171). -/
theorem legality_of_faulted (hn : i ≠ .nop) (he : i ≠ .initEnc) (hd : i ≠ .initDec) (m : Mode) :
    legality i .faulted m = .ignored := by
  cases i with
  | nop => exact absurd rfl hn
  | initEnc => exact absurd rfl he
  | initDec => exact absurd rfl hd
  | encSym _ | decSym | finish => rfl

/-- Outside FAULTED a command that R171's table does not allow is illegal. -/
theorem legality_illegal (hs : s.runState ≠ .faulted) (h : legality i s.runState s.mode ≠ .ok) :
    legality i s.runState s.mode = .illegal := by
  cases hl : legality i s.runState s.mode with
  | ok => exact absurd hl h
  | illegal => rfl
  | ignored => exact absurd (faulted_of_legality_ignored hl) hs

/-- Settles O5: the core's turn with a latched word, which decodes or not. -/
theorem stepRunsDecodedCommand : Obligations.StepRunsDecodedCommand := by
  intro s u w hp turn
  have turn_next {t : State} (hx : executeWord w s = .next t) : step turn = .next t.retire := coreStep_of_pend hp hx
  refine ⟨fun hx => ⟨turn_next hx, fun ha => ?_⟩, fun i hi => executeWord_of_ok hi s, fun e he hs => turn_next ?_,
    fun e he hs => turn_next (t := s.raise .illegalCommand) ?_⟩
  · rw [step, ha]
    exact coreStep_of_pend hp hx
  · rw [executeWord_of_error ⟨e, he⟩, execIllegalWord_of_faulted hs]
  · rw [executeWord_of_error ⟨e, he⟩, execIllegalWord_of_not_faulted hs]

/-- Settles O13: R171's table entry by entry; the words of NOP and the INITs are their encodings. -/
theorem executeFollowsLegalityTable : Obligations.ExecuteFollowsLegalityTable := by
  intro w s
  refine ⟨fun hs h0 h1 h2 => ?_, fun hs he => ?_, fun i hi hs hcase => ?_, fun i hi => executeWord_of_ok hi s⟩
  · cases hd : decodeWord w with
    | error e => rw [executeWord_of_error ⟨e, hd⟩, execIllegalWord_of_faulted hs]
    | ok i =>
      have hw : w = encode i := (decodeEncodeAgree i w).2.mp hd
      rw [executeWord_of_ok hd]
      refine exec_of_ignored (hs ▸ legality_of_faulted ?_ ?_ ?_ s.mode)
      · rintro rfl; exact h0 hw
      · rintro rfl; exact h1 hw
      · rintro rfl; exact h2 hw
  · rw [executeWord_of_error he, execIllegalWord_of_not_faulted hs]
  · rw [executeWord_of_ok hi]
    refine exec_of_illegal (legality_illegal hs fun hl => ?_)
    rcases hcase with ⟨⟨a, rfl⟩, h⟩ | ⟨rfl, h⟩ | ⟨rfl, h⟩
    · exact h (legality_encSym hl)
    · exact h (legality_decSym hl)
    · exact h (legality_finish hl)

/-! ## NOP, INIT_ENC, INIT_DEC -/

/-- Settles O19: NOP is allowed in every state, and its rule is to do nothing. -/
theorem nopChangesNothing : Obligations.NopChangesNothing := fun _ => exec_of_ok (i := .nop) rfl rfl

/-- The orders that an INIT accepts (R42, R173). -/
theorem configOk_iff (s : State) : s.configOk = true ↔ s.maxord = 2 ∨ s.maxord = 3 := by
  have key : ∀ m : BitVec 2, decide (2 ≤ m.toNat) = true ↔ m = 2 ∨ m = 3 := by decide
  exact key s.maxord

/-- Settles O20: INIT_ENC's rule, by what CONFIG holds. -/
theorem initEncStartsRun : Obligations.InitEncStartsRun := by
  refine fun s => ⟨fun hm => exec_of_ok (i := .initEnc) rfl ?_, fun hm => exec_of_error (i := .initEnc) rfl ?_⟩
  · exact if_pos ((configOk_iff s).mpr hm)
  · exact if_neg fun hc => hm ((configOk_iff s).mp hc)

/-- Bit i of a stream of `len` bits stands i places below the top of what is folded (R149). -/
theorem testBit_foldInput (s : State) (len : Nat) {n j : Nat} (hj : j < n) :
    (foldInput s len n).testBit (n - 1 - j) = (decide (j < len) && s.ibit j) := by
  induction n with
  | zero => exact absurd hj (Nat.not_lt_zero j)
  | succ n ih =>
    have hbit : (if n < len then s.ibit n else false) = (decide (n < len) && s.ibit n) := by
      by_cases hn : n < len <;> simp [hn]
    rw [foldInput, hbit, ← Nat.bit_val]
    rcases Nat.lt_succ_iff_lt_or_eq.mp hj with hj | rfl
    · rw [← ih hj, show n + 1 - 1 - j = (n - 1 - j) + 1 by omega, Nat.testBit_bit_succ]
    · rw [Nat.add_sub_cancel, Nat.sub_self, Nat.testBit_bit_zero]

/-- The first 32 stream bits are the first word of IBUF (R54). -/
theorem ibit_eq_first_word (s : State) {j : Nat} (hj : j < 32) : s.ibit j = (s.ibufWord 0x10000).getLsbD (31 - j) := by
  rw [(streamBitIsWordBit s j).1, Nat.div_eq_of_lt hj, Nat.mod_eq_of_lt hj]

/-- Settles O21: INIT_DEC's rule, BadLength first; VALUE bit by bit. -/
theorem initDecStartsRun : Obligations.InitDecStartsRun := by
  refine fun s => ⟨fun hlen hm => ⟨BitVec.ofNat 64 (loadedValue s s.inLen.toNat),
    exec_of_ok (i := .initDec) rfl ?_, ?_, fun j hj => ?_⟩, fun hlen => exec_of_error (i := .initDec) rfl ?_,
    fun hlen hm => exec_of_error (i := .initDec) rfl ?_⟩
  · exact (if_neg hlen.not_gt).trans (if_pos ((configOk_iff s).mpr hm))
  · have := loadedValue_le s s.inLen.toNat
    rw [BitVec.toNat_ofNat]
    omega
  · have hbit := testBit_foldInput s s.inLen.toNat hj
    rw [BitVec.getLsbD_ofNat, ← ibit_eq_first_word s hj, ← hbit, loadedValue, Config.PREC_eq]
    simp [show 31 - j < 64 by omega]
  · exact if_pos hlen
  · exact (if_neg hlen.not_gt).trans (if_neg fun hc => hm ((configOk_iff s).mp hc))

/-! ## Host writes -/

/-- An aligned write with BUSY = 0 does what its target takes (R170, R179). -/
theorem hostWrite_of_target {a : Addr} {v : Word} (hb : s.busy = false) (ha : misaligned a = false)
    (h : s.writeTarget v (targetOf a) = some t) : hostWrite a v s = t := by
  simp [hostWrite, hb, ha, h]

/-- Settles O25: each of the three writable registers is its address's target. -/
theorem registerWritesTakeEffect : Obligations.RegisterWritesTakeEffect := by
  intro s v hb
  have low (n : Nat) : v.extractLsb' 0 n = v.setWidth n := by
    refine BitVec.eq_of_getLsbD_eq fun i hi => ?_; simp [hi]
  rw [← low, ← low]
  exact ⟨hostWrite_of_target hb rfl rfl, hostWrite_of_target hb rfl rfl, hostWrite_of_target hb rfl rfl⟩

/-- The bytes of IBUF after a word write: the word's four, and every other one as before (R179). -/
theorem ibufByte_putIbufWord (s : State) (a : Nat) (v : Word) (x : Nat) :
    (s.putIbufWord a v).ibufByte x =
      if a + 3 = x then v.extractLsb' 0 8 else if a + 2 = x then v.extractLsb' 8 8
      else if a + 1 = x then v.extractLsb' 16 8 else if a = x then v.extractLsb' 24 8 else s.ibufByte x := by
  simp only [State.ibufByte, State.putIbufWord, Memory.get?_put]
  split_ifs <;> rfl

theorem ibufByte_putIbufWord_other (s : State) {a : Nat} (v : Word) {x : Nat} (h : x < a ∨ a + 4 ≤ x) :
    (s.putIbufWord a v).ibufByte x = s.ibufByte x := by
  simp (disch := omega) only [ibufByte_putIbufWord, if_neg]

/-- A written IBUF word reads back. -/
theorem ibufWord_putIbufWord_same (s : State) (a : Nat) (v : Word) : (s.putIbufWord a v).ibufWord a = v := by
  simp (disch := omega) only [State.ibufWord, ibufByte_putIbufWord, if_neg, if_true]
  rw [BitVec.extractLsb'_append_extractLsb'_eq_extractLsb' (by rfl),
    BitVec.extractLsb'_append_extractLsb'_eq_extractLsb' (by rfl),
    BitVec.extractLsb'_append_extractLsb'_eq_extractLsb' (by rfl), BitVec.extractLsb'_eq_self]

/-- Settles O24: the write's target is its word, whose four bytes hold the word's stream bits. -/
theorem ibufWriteSetsItsStreamBits : Obligations.IbufWriteSetsItsStreamBits := by
  intro s a v hb h0 h1 h2 t
  have htarget : targetOf a = .ibuf a.toNat := by
    simp (disch := omega) only [targetOf, if_neg, if_pos]
  have ht : t = s.putIbufWord a.toNat v :=
    hostWrite_of_target hb (misaligned_eq_false h0) (by rw [htarget]; rfl)
  rw [ht]
  refine ⟨rfl, fun i => ?_, fun x hx => ibufByte_putIbufWord_other s v hx, ?_⟩
  · split
    · have hword : 0x10000 + 4 * (i / 32) = a.toNat := by omega
      rw [(streamBitIsWordBit _ i).1, hword, ibufWord_putIbufWord_same]
    · rw [State.ibit, State.ibit, ibufByte_putIbufWord_other]
      unfold streamByte ibufBase; omega
  · refine hostRead_of_target hb (misaligned_eq_false h0) ?_
    rw [htarget]
    exact congrArg some (ibufWord_putIbufWord_same s a.toNat v)

end Sys2Proof.Machine
end

section
/-! PROOF. Emitting ends without a fault exactly where OBUF has room for the bits (R145, R151), what it keeps of the output
(R245), and the obligation on FINISH (R148, R177). -/

namespace Sys2Proof.Machine

variable {s t u : State} {v : Bool} {c : RenormCase} {n : Nat}

/-! ## Where emitting completes -/

theorem emit_isOk (h : s.outLen.toNat < 524288) (v : Bool) : ∃ t, emit Config.build v s = .ok t := ⟨_, if_neg h.ne⟩

theorem emitMany_isOk (h : s.outLen.toNat + n ≤ 524288) (v : Bool) : ∃ t, emitMany Config.build v n s = .ok t := by
  induction n generalizing s with
  | zero => exact ⟨s, rfl⟩
  | succ n ih =>
    obtain ⟨u, hu⟩ := emit_isOk (s := s) (by omega) v
    have hlen := (emit_appends (g := fun _ => v) (by omega) hu rfl).len
    obtain ⟨t, ht⟩ := ih (s := u) (by omega)
    exact ⟨t, by rw [emitMany, hu]; exact ht⟩

theorem emitOwed_isOk (h : s.outLen.toNat + s.straddle.toNat + 1 ≤ 524288) (v : Bool) :
    ∃ t, emitOwed Config.build v s = .ok t := by
  obtain ⟨u, hu⟩ := emit_isOk (s := s) (by omega) v
  have hlen := (emit_appends (g := fun _ => v) (by omega) hu rfl).len
  obtain ⟨t, ht⟩ := emitMany_isOk (s := u) (n := s.straddle.toNat) (by omega) (!v)
  exact ⟨t, by rw [emitOwed, hu]; exact ht⟩

theorem straddleInc_isOk (h : s.straddle.toNat ≠ 4294967295) : ∃ t, straddleInc Config.build s = .ok t :=
  ⟨_, if_neg h⟩

theorem caseEmit_isOk (h : s.outLen.toNat + s.straddle.toNat + 1 ≤ 524288) (c : RenormCase) :
    ∃ t, caseEmit Config.build c s = .ok t := by
  cases c with
  | low => obtain ⟨u, hu⟩ := emitOwed_isOk h false; exact ⟨u.setStraddle 0, by rw [caseEmit, hu]⟩
  | high => obtain ⟨u, hu⟩ := emitOwed_isOk h true; exact ⟨u.setStraddle 0, by rw [caseEmit, hu]⟩
  | mid => exact straddleInc_isOk (by omega)

/-! ## What emitting keeps -/

theorem emit_straddle {b : Config.Build} (h : emit b v s = .ok t) : t.straddle = s.straddle := by
  obtain ⟨-, rfl⟩ := emit_ok h; rfl

theorem emitMany_straddle {b : Config.Build} (h : emitMany b v n s = .ok t) : t.straddle = s.straddle := by
  induction n generalizing s with
  | zero => injection h with h; rw [h]
  | succ n ih =>
    obtain ⟨u, h₁, h₂⟩ := emitMany_succ_ok h
    rw [ih h₂, emit_straddle h₁]

theorem emitOwed_straddle {b : Config.Build} (h : emitOwed b v s = .ok t) : t.straddle = s.straddle := by
  obtain ⟨u, h₁, h₂⟩ := emitOwed_ok h
  rw [emitMany_straddle h₂, emit_straddle h₁]

/-- t's output stream is s's with some bits appended: the bits before OUT_LEN and from the new OUT_LEN on are kept, and so
is every byte that holds no appended bit (R145, R245). -/
structure State.Extends (s t : State) : Prop where
  mono  : s.outLen.toNat ≤ t.outLen.toNat
  room  : t.outLen.toNat ≤ 524288
  bits  : ∀ i, i < s.outLen.toNat ∨ t.outLen.toNat ≤ i → t.obit i = s.obit i
  bytes : ∀ x, (∀ i, s.outLen.toNat ≤ i → i < t.outLen.toNat → streamByte obufBase i ≠ x) → t.obufByte x = s.obufByte x

theorem State.Extends.refl (hs : s.outLen.toNat ≤ 524288) : s.Extends s := ⟨le_rfl, hs, fun _ _ => rfl, fun _ _ => rfl⟩

theorem State.Extends.trans (h : s.Extends u) (h' : u.Extends t) : s.Extends t := by
  have hsu := h.mono
  have hut := h'.mono
  refine ⟨hsu.trans hut, h'.room, fun i hi => ?_, fun x hx => ?_⟩
  · rw [h'.bits i (by omega), h.bits i (by omega)]
  · rw [h'.bytes x fun i h₁ h₂ => hx i (hsu.trans h₁) h₂, h.bytes x fun i h₁ h₂ => hx i h₁ (h₂.trans_le hut)]

/-- An update that leaves OUT_LEN and OBUF alone keeps the output. -/
theorem State.Extends.congr (h : s.Extends u) (hlen : t.outLen = u.outLen) (hobuf : t.obuf = u.obuf)
    (hdraw : t.obufDraw = u.obufDraw) : s.Extends t where
  mono := hlen ▸ h.mono
  room := hlen ▸ h.room
  bits i hi := by rw [obit_congr hobuf hdraw, h.bits i (hlen ▸ hi)]
  bytes x hx := by rw [obufByte_congr hobuf hdraw, h.bytes x (hlen ▸ hx)]

theorem emit_extends (hs : s.outLen.toNat ≤ 524288) (h : emit Config.build v s = .ok t) : s.Extends t := by
  obtain ⟨hlen, hroom, hbits⟩ := emit_appends (g := fun _ => v) hs h rfl
  obtain ⟨-, rfl⟩ := emit_ok h
  refine ⟨by omega, hroom, fun i hi => ?_, fun x hx => ?_⟩
  · rw [hbits, if_neg (by omega)]
  · rw [obufByte_congr (State.setOutLen_obuf ..) (State.setOutLen_obufDraw ..), obufByte_putObit,
      if_neg (hx _ le_rfl (by omega))]

theorem emitMany_extends (hs : s.outLen.toNat ≤ 524288) (h : emitMany Config.build v n s = .ok t) : s.Extends t := by
  induction n generalizing s with
  | zero => injection h with h; exact h ▸ .refl hs
  | succ n ih =>
    obtain ⟨u, h₁, h₂⟩ := emitMany_succ_ok h
    have hu := emit_extends hs h₁
    exact hu.trans (ih hu.room h₂)

theorem emitOwed_extends (hs : s.outLen.toNat ≤ 524288) (h : emitOwed Config.build v s = .ok t) : s.Extends t := by
  obtain ⟨u, h₁, h₂⟩ := emitOwed_ok h
  have hu := emit_extends hs h₁
  exact hu.trans (emitMany_extends hu.room h₂)

theorem straddleInc_extends (hs : s.outLen.toNat ≤ 524288) (h : straddleInc Config.build s = .ok t) : s.Extends t := by
  obtain ⟨-, rfl⟩ := straddleInc_ok h
  exact (State.Extends.refl hs).congr rfl rfl rfl

theorem caseEmit_extends (hs : s.outLen.toNat ≤ 524288) (h : caseEmit Config.build c s = .ok t) : s.Extends t := by
  rcases caseEmit_ok h with ⟨-, u, h₁, rfl⟩ | ⟨-, u, h₁, rfl⟩ | ⟨-, h₁⟩
  · exact (emitOwed_extends hs h₁).congr rfl rfl rfl
  · exact (emitOwed_extends hs h₁).congr rfl rfl rfl
  · exact straddleInc_extends hs h₁

theorem renormEncPass_extends (hs : s.outLen.toNat ≤ 524288) (h : renormEncPass Config.build c s = .ok t) :
    s.Extends t := by
  obtain ⟨u, h₁, h₂⟩ := renormEncPass_ok h
  obtain ⟨-, -, rfl⟩ := stretchEnc_ok h₂
  exact (caseEmit_extends hs h₁).congr rfl rfl rfl

/-- RenormEnc only appends to the output (R245). -/
theorem renormEnc_extends (hs : s.outLen.toNat ≤ 524288) (h : renormEnc Config.build s = .ok t) : s.Extends t :=
  (renormEncLoop_induction (fun h hp => h.trans (renormEncPass_extends h.room hp)) (.refl hs) h).1

/-! ## FINISH -/

/-- Where STRADDLE can count one more, Flush ends without a fault exactly where OBUF has room for its bits (R148). -/
theorem flush_isOk_iff (hs : s.outLen.toNat ≤ 524288) (hst : s.straddle.toNat ≠ 4294967295) :
    (∃ t, flush Config.build s = .ok t) ↔ s.outLen.toNat + s.straddle.toNat + 2 ≤ 524288 := by
  constructor
  · rintro ⟨t, ht⟩
    obtain ⟨u, hu, hf⟩ := flush_ok ht
    have hcount := straddleInc_straddle hu
    obtain ⟨-, rfl⟩ := straddleInc_ok hu
    obtain ⟨hlen, hroom, -⟩ := emitOwed_appends (s := s.setStraddle _) hs hf
    rw [State.setStraddle_outLen] at hlen
    omega
  · intro hroom
    obtain ⟨u, hu⟩ := straddleInc_isOk hst
    have hcount := straddleInc_straddle hu
    have hlen : u.outLen = s.outLen := by obtain ⟨-, rfl⟩ := straddleInc_ok hu; rfl
    obtain ⟨t, ht⟩ := emitOwed_isOk (s := u) (by rw [hlen, hcount]; omega) (decide (Config.QUARTER ≤ s.lo.toNat))
    exact ⟨t, by rw [flush, hu]; exact ht⟩

/-- What Flush leaves: STRADDLE one larger, and as many bits owed appended after its own (R148). -/
theorem flush_appends (hs : s.outLen.toNat ≤ 524288) (h : flush Config.build s = .ok t) :
    t.straddle.toNat = s.straddle.toNat + 1 ∧
      s.Appends (1 + (s.straddle.toNat + 1)) (owedBits (decide (Config.QUARTER ≤ s.lo.toNat)) s.outLen.toNat) t := by
  obtain ⟨u, hu, hf⟩ := flush_ok h
  have hcount := straddleInc_straddle hu
  obtain ⟨-, rfl⟩ := straddleInc_ok hu
  have ha := emitOwed_appends (s := s.setStraddle _) hs hf
  rw [hcount] at ha
  exact ⟨by rw [emitOwed_straddle hf, hcount], ha.len, ha.room, ha.bits⟩

theorem flush_extends (hs : s.outLen.toNat ≤ 524288) (h : flush Config.build s = .ok t) : s.Extends t := by
  obtain ⟨u, hu, hf⟩ := flush_ok h
  have hsu := straddleInc_extends hs hu
  exact hsu.trans (emitOwed_extends hsu.room hf)

/-- The rule of FINISH in a decode run is STATE only (R177). -/
theorem finishRule_decode {b : Config.Build} (hm : s.mode = .decode) : finishRule b s = .ok s.terminate := by
  rw [finishRule, hm]

/-- The rule of FINISH in an encode run is Flush, and STATE (R177). -/
theorem finishRule_encode {b : Config.Build} (hm : s.mode = .encode) :
    finishRule b s = (flush b s).map State.terminate := by
  rw [finishRule, hm]
  cases flush b s <;> rfl

theorem legality_finish_of_active (hs : s.runState = .active) : legality .finish s.runState s.mode = .ok := by
  rw [hs]; rfl

/-- Settles O22: FINISH's rule in each mode; in an encode run the three outcomes of Flush. -/
theorem finishEndsRun : Obligations.FinishEndsRun := by
  refine ⟨fun s ha hm => exec_of_ok (legality_finish_of_active ha) (finishRule_decode hm),
    fun s ha hm hs => ⟨fun hst => ?_, fun hst hfull => ?_, fun hroom => ?_⟩⟩
  · refine exec_of_error (legality_finish_of_active ha) ((finishRule_encode hm).trans ?_)
    have hinc : straddleInc Config.build s = .error .straddleOverflow := if_pos hst
    rw [flush, hinc]; rfl
  · refine exec_of_error (legality_finish_of_active ha) ((finishRule_encode hm).trans ?_)
    obtain ⟨u, hu⟩ := straddleInc_isOk hst
    cases hf : flush Config.build s with
    | ok t => exact absurd ((flush_isOk_iff hs hst).mp ⟨t, hf⟩) (by omega)
    | error c =>
      rw [flush, hu] at hf
      rw [emitOwed_error hf]; rfl
  · obtain ⟨u, hu⟩ := (flush_isOk_iff hs (by omega)).mpr hroom
    obtain ⟨hcount, ha'⟩ := flush_appends hs hu
    have hext := flush_extends hs hu
    have hlen := ha'.len
    refine ⟨u.terminate, exec_of_ok (legality_finish_of_active ha) ((finishRule_encode hm).trans ?_), ?_, hcount, ?_,
      ?_, fun i h₁ h₂ => ?_, hext.bits, hext.bytes⟩
    · rw [hu]; rfl
    · rw [(flush_same hu).eq]; rfl
    · show u.outLen.toNat = _
      omega
    · refine (ha'.bits _).trans ?_
      rw [if_pos (by omega), owedBits, if_pos rfl, Config.QUARTER_eq]
    · refine (ha'.bits _).trans ?_
      have h₂ : i < u.outLen.toNat := h₂
      rw [if_pos (by omega), owedBits, if_neg h₁.ne', Config.QUARTER_eq, ← decide_not, decide_eq_decide, not_le]

end Sys2Proof.Machine
end

section
/-! PROOF. The obligations on ENC_SYM and DEC_SYM step by step (R175, R176): what each command is made of, what it leaves
unchanged, and what an encode step depends on (R182). -/

namespace Sys2Proof.Machine

variable {b : Config.Build} {s t u v : State} {a : Symbol} {c : FaultCode} {T : Table}

/-! ## Narrow and Observe -/

section
variable {e : Estimate}

theorem codeSymbol_of_narrow_error (hn : narrow b e a s = .error c) : codeSymbol b e a s = .error c := by
  rw [codeSymbol, hn]

/-- Observe reads nothing that Narrow writes (R124). -/
theorem codeSymbol_of_narrow (hn : narrow b e a s = .ok u) :
    codeSymbol b e a s = (observeFrom b s.hist a (s.hist.length + 1) s.table).map
      (fun T => u.setModel T (slide s.runW.toNat s.hist a)) := by
  rw [codeSymbol, hn]
  obtain ⟨-, -, -, -, rfl⟩ := narrow_ok hn
  show observe b a _ = _
  rw [observe, State.setInterval_hist, State.setInterval_table, State.setInterval_runW]
  cases observeFrom b s.hist a (s.hist.length + 1) s.table <;> rfl

theorem codeSymbol_of_observe_error (hn : narrow b e a s = .ok u)
    (ho : observeFrom b s.hist a (s.hist.length + 1) s.table = .error c) : codeSymbol b e a s = .error c := by
  rw [codeSymbol_of_narrow hn, ho]; rfl

theorem codeSymbol_of_observe (hn : narrow b e a s = .ok u)
    (ho : observeFrom b s.hist a (s.hist.length + 1) s.table = .ok T) :
    codeSymbol b e a s = .ok (u.setModel T (slide s.runW.toNat s.hist a)) := by
  rw [codeSymbol_of_narrow hn, ho]; rfl

end

/-! ## ENC_SYM -/

/-- RenormEnc neither reads nor writes T and H. -/
theorem renormEnc_setModel (b : Config.Build) (T : Table) (H : Context) (s : State) :
    renormEnc b (s.setModel T H) = (renormEnc b s).map (·.setModel T H) := renormEncLoop_setModel b T H _ s

theorem encSymRule_of_codeSymbol_error (h : codeSymbol b (estimate b s.table s.hist) a s = .error c) :
    encSymRule b a s = .error c := by
  rw [encSymRule, h]

/-- ENC_SYM renormalizes the narrowed state: RenormEnc reads nothing that Observe writes (R175). -/
theorem encSymRule_of_observe (hn : narrow b (estimate b s.table s.hist) a s = .ok u)
    (ho : observeFrom b s.hist a (s.hist.length + 1) s.table = .ok T) :
    encSymRule b a s = (renormEnc b u).map
      (fun v => (v.setModel T (slide s.runW.toNat s.hist a)).countSymbol) := by
  rw [encSymRule, codeSymbol_of_observe hn ho]
  simp only [renormEnc_setModel]
  cases renormEnc b u <;> rfl

/-- The steps of an ENC_SYM that ends without a fault (R175). -/
theorem encSymRule_steps (h : encSymRule b a s = .ok t) :
    ∃ u T v, narrow b (estimate b s.table s.hist) a s = .ok u ∧
      observeFrom b s.hist a (s.hist.length + 1) s.table = .ok T ∧ renormEnc b u = .ok v ∧
      t = (v.setModel T (slide s.runW.toNat s.hist a)).countSymbol := by
  obtain ⟨s₁, s₂, hc, -, -⟩ := encSymRule_ok h
  obtain ⟨hn, ho, -⟩ := codeSymbol_frame hc
  rw [encSymRule_of_observe hn ho] at h
  cases hr : renormEnc b (s.setInterval _ _) with
  | error e => rw [hr] at h; injection h
  | ok v => rw [hr] at h; injection h with h; exact ⟨_, _, v, hn, ho, hr, h.symm⟩

/-- The whole state after the steps of ENC_SYM. -/
theorem encoded_eq {e : Estimate} (hn : narrow b e a s = .ok u) (hr : renormEnc b u = .ok v) (T : Table) (H : Context) :
    (v.setModel T H).countSymbol = { s with
      lo := v.lo, hi := v.hi, straddle := v.straddle, outLen := v.outLen, obuf := v.obuf, table := T, hist := H,
      symCount := s.symCount + 1 } := by
  obtain ⟨-, -, -, -, rfl⟩ := narrow_ok hn
  rw [renormEncLoop_frame hr]; rfl

/-! ## DEC_SYM -/

/-- RenormDec neither reads nor writes T and H. -/
theorem renormDec_setModel (b : Config.Build) (T : Table) (H : Context) (s : State) :
    renormDec b (s.setModel T H) = (renormDec b s).map (·.setModel T H) := renormDecLoop_setModel b T H _ s

theorem decSymRule_of_locate_error (hl : locate b (estimate b s.table s.hist) s = .error c) :
    decSymRule b s = .error c := by
  rw [decSymRule, hl]

section
variable (hl : locate b (estimate b s.table s.hist) s = .ok a)
include hl

theorem decSymRule_of_codeSymbol_error (h : codeSymbol b (estimate b s.table s.hist) a s = .error c) :
    decSymRule b s = .error c := by
  rw [decSymRule, hl]
  simp only [h]

/-- DEC_SYM renormalizes the narrowed state: RenormDec reads nothing that Observe writes (R176). -/
theorem decSymRule_of_observe (hn : narrow b (estimate b s.table s.hist) a s = .ok u)
    (ho : observeFrom b s.hist a (s.hist.length + 1) s.table = .ok T) :
    decSymRule b s = (renormDec b u).map
      (fun v => ((v.setModel T (slide s.runW.toNat s.hist a)).setSym a).countSymbol) := by
  rw [decSymRule, hl]
  simp only [codeSymbol_of_observe hn ho, renormDec_setModel]
  cases renormDec b u <;> rfl

end

/-- The steps of a DEC_SYM that ends without a fault (R176). -/
theorem decSymRule_steps (h : decSymRule b s = .ok t) :
    ∃ a u T v, narrow b (estimate b s.table s.hist) a s = .ok u ∧ renormDec b u = .ok v ∧
      t = ((v.setModel T (slide s.runW.toNat s.hist a)).setSym a).countSymbol := by
  obtain ⟨a, s₁, s₂, hl, hc, -, -⟩ := decSymRule_ok h
  obtain ⟨hn, ho, -⟩ := codeSymbol_frame hc
  rw [decSymRule_of_observe hl hn ho] at h
  cases hr : renormDec b (s.setInterval _ _) with
  | error e => rw [hr] at h; injection h
  | ok v => rw [hr] at h; injection h with h; exact ⟨a, _, _, v, hn, hr, h.symm⟩

/-- The whole state after the steps of DEC_SYM. -/
theorem decoded_eq {e : Estimate} (hn : narrow b e a s = .ok u) (hr : renormDec b u = .ok v) (T : Table) (H : Context) :
    ((v.setModel T H).setSym a).countSymbol = { s with
      lo := v.lo, hi := v.hi, value := v.value, cursor := v.cursor, table := T, hist := H, sym := a, symValid := true,
      symCount := s.symCount + 1 } := by
  obtain ⟨-, -, -, -, rfl⟩ := narrow_ok hn
  rw [renormDecLoop_frame hr]; rfl

/-! ## The obligations on the steps -/

theorem legality_encSym_of_active (ha : s.runState = .active) (hm : s.mode = .encode) (a : Symbol) :
    legality (.encSym a) s.runState s.mode = .ok := by
  rw [ha, hm]; rfl

theorem legality_decSym_of_active (ha : s.runState = .active) (hm : s.mode = .decode) :
    legality .decSym s.runState s.mode = .ok := by
  rw [ha, hm]; rfl

/-- Settles O59: each command's rule, by the first step that faults. -/
theorem symbolCommandsFollowTheirSteps : Obligations.SymbolCommandsFollowTheirSteps := by
  intro s hs e
  constructor
  · intro a hm
    have fault {c} (hc : codeSymbol Config.build e a s = .error c) : exec (.encSym a) s = .next (s.raise c) :=
      exec_of_error (legality_encSym_of_active hs hm a) (encSymRule_of_codeSymbol_error hc)
    refine ⟨fun c hc => fault (codeSymbol_of_narrow_error hc), fun u hn =>
      ⟨fun c hc => fault (codeSymbol_of_observe_error hn hc), fun T ho => ?_⟩⟩
    have hrule := encSymRule_of_observe hn ho
    refine ⟨fun c hr => exec_of_error (legality_encSym_of_active hs hm a) (hrule.trans ?_),
      fun v hr => exec_of_ok (legality_encSym_of_active hs hm a) (hrule.trans ?_)⟩
    · rw [hr]; rfl
    · rw [hr, ← encoded_eq hn hr]; rfl
  · intro hm
    refine ⟨fun c hc => exec_of_error (legality_decSym_of_active hs hm) (decSymRule_of_locate_error hc), fun a hl => ?_⟩
    have fault {c} (hc : codeSymbol Config.build e a s = .error c) : exec .decSym s = .next (s.raise c) :=
      exec_of_error (legality_decSym_of_active hs hm) (decSymRule_of_codeSymbol_error hl hc)
    refine ⟨fun c hc => fault (codeSymbol_of_narrow_error hc), fun u hn =>
      ⟨fun c hc => fault (codeSymbol_of_observe_error hn hc), fun T ho => ?_⟩⟩
    have hrule := decSymRule_of_observe hl hn ho
    refine ⟨fun c hr => exec_of_error (legality_decSym_of_active hs hm) (hrule.trans ?_),
      fun v hr => exec_of_ok (legality_decSym_of_active hs hm) (hrule.trans ?_)⟩
    · rw [hr]; rfl
    · rw [hr, ← decoded_eq hn hr]; rfl

/-! ## The frames -/

/-- Settles O54: the steps of ENC_SYM, of which RenormEnc alone writes the output. -/
theorem encSymFrame : Obligations.EncSymFrame := by
  intro a s t hs h
  obtain ⟨u, T, v, hn, -, hr, rfl⟩ := encSymRule_steps (completes_rule h).2
  have hframe := encoded_eq hn hr T (slide s.runW.toNat s.hist a)
  obtain ⟨-, -, -, -, rfl⟩ := narrow_ok hn
  have hext := renormEnc_extends (s := s.setInterval _ _) hs hr
  refine ⟨hframe, hext.mono, hext.bits, hext.bytes, fun x => ?_⟩
  rw [hframe]; rfl

/-- A completed RenormDec never moves CURSOR back (R147). -/
theorem cursor_le_of_renormDec (h : renormDec Config.build s = .ok t) : s.cursor.toNat ≤ t.cursor.toNat := by
  refine (renormDecLoop_induction (P := fun u => s.cursor.toNat ≤ u.cursor.toNat) (fun hle _ hp => ?_) le_rfl h).1
  obtain ⟨-, -, hcur, -⟩ := stretchDec_absorbs hp
  omega

/-- Settles O55: the steps of DEC_SYM, none of which writes a buffer. -/
theorem decSymFrame : Obligations.DecSymFrame := by
  intro s t h
  obtain ⟨a, u, T, v, hn, hr, rfl⟩ := decSymRule_steps (completes_rule h).2
  have hframe := decoded_eq hn hr T (slide s.runW.toNat s.hist a)
  have hcur := cursor_le_of_renormDec hr
  obtain ⟨-, -, -, -, rfl⟩ := narrow_ok hn
  refine ⟨hframe, hcur, fun x => ?_, fun x => ?_⟩ <;> rw [hframe] <;> rfl

/-! ## What an encode step depends on -/

/-- What RenormEnc reads is the same in s and u, and so are the output bits from k on (R182). -/
structure State.SameEncoding (k : Nat) (s u : State) : Prop where
  lo       : s.lo = u.lo
  hi       : s.hi = u.hi
  straddle : s.straddle = u.straddle
  outLen   : s.outLen = u.outLen
  room     : s.outLen.toNat ≤ 524288
  bits     : ∀ i, k ≤ i → i < s.outLen.toNat → s.obit i = u.obit i

/-- The same bits appended to both. -/
theorem State.SameEncoding.bits_of_appends {k n : Nat} {g : Nat → Bool} {s' u' : State} (h : s.SameEncoding k u)
    (hs : s.Appends n g s') (hu : u.Appends n g u') :
    s'.outLen = u'.outLen ∧ ∀ i, k ≤ i → i < s'.outLen.toNat → s'.obit i = u'.obit i := by
  refine ⟨BitVec.eq_of_toNat_eq (by rw [hs.len, hu.len, h.outLen]), fun i hk hi => ?_⟩
  rw [hs.bits, hu.bits, h.outLen]
  by_cases hnew : u.outLen.toNat ≤ i ∧ i < u.outLen.toNat + n
  · rw [if_pos hnew, if_pos hnew]
  · rw [if_neg hnew, if_neg hnew]
    rw [hs.len] at hi
    exact h.bits i hk (by rw [h.outLen] at hi ⊢; omega)

theorem State.SameEncoding.pass {k : Nat} {c : RenormCase} {s' u' : State} (h : s.SameEncoding k u)
    (hs : renormEncPass Config.build c s = .ok s') (hu : renormEncPass Config.build c u = .ok u') :
    s'.SameEncoding k u' := by
  have hsi := renormEncPass_stretched hs
  have hui := renormEncPass_stretched hu
  have hlo : s'.lo = u'.lo := BitVec.eq_of_toNat_eq (by rw [hsi.lo, hui.lo, h.lo])
  have hhi : s'.hi = u'.hi := BitVec.eq_of_toNat_eq (by rw [hsi.hi, hui.hi, h.hi])
  rcases renormEncPass_output h.room hs with ⟨hc, hs0, hsa⟩ | ⟨hc, hs1, hsa⟩ <;>
    rcases renormEncPass_output (h.outLen ▸ h.room) hu with ⟨hc', hu0, hua⟩ | ⟨hc', hu1, hua⟩
  · rw [← h.straddle, ← h.outLen] at hua
    obtain ⟨hlen, hbits⟩ := h.bits_of_appends hsa hua
    exact ⟨hlo, hhi, hs0.trans hu0.symm, hlen, hsa.room, hbits⟩
  · exact absurd hc' hc
  · exact absurd hc hc'
  · obtain ⟨hlen, hbits⟩ := h.bits_of_appends hsa hua
    exact ⟨hlo, hhi, BitVec.eq_of_toNat_eq (by rw [hs1, hu1, h.straddle]), hlen, hsa.room, hbits⟩

theorem State.SameEncoding.renormEncLoop {k n : Nat} {s' u' : State} (h : s.SameEncoding k u)
    (hs : renormEncLoop Config.build n s = .ok s') (hu : renormEncLoop Config.build n u = .ok u') :
    s'.SameEncoding k u' := by
  induction n generalizing s u with
  | zero => injection hs
  | succ n ih =>
    rcases renormEncLoop_succ_ok hs with ⟨hc, rfl⟩ | ⟨c, s₁, hc, hp, hs'⟩ <;>
      rcases renormEncLoop_succ_ok hu with ⟨hc', rfl⟩ | ⟨c', u₁, hc', hp', hu'⟩ <;>
      rw [h.lo, h.hi, hc'] at hc
    · exact h
    · injection hc
    · injection hc
    · obtain rfl := Option.some.inj hc
      exact ih (h.pass hp hp') hs' hu'

/-- Narrow reads the interval only, and keeps the output (R133, R135). -/
theorem State.SameEncoding.narrow {k : Nat} {e : Estimate} {s' u' : State} (h : s.SameEncoding k u)
    (hs : narrow b e a s = .ok s') (hu : narrow b e a u = .ok u') : s'.SameEncoding k u' := by
  obtain ⟨-, -, -, -, rfl⟩ := narrow_ok hs
  obtain ⟨-, -, -, -, rfl⟩ := narrow_ok hu
  have hl : narrowedLo b e a s = narrowedLo b e a u := by
    rw [narrowedLo, narrowedLo, State.range, State.range, h.lo, h.hi]
  have hh : narrowedHi b e a s = narrowedHi b e a u := by
    rw [narrowedHi, narrowedHi, hl, State.range, State.range, h.lo, h.hi]
  exact ⟨by simp [hl], by simp [hh], h.straddle, h.outLen, h.room, h.bits⟩

/-- Settles O58: Estimate, Narrow and Observe read what the two states agree on, and RenormEnc appends the same bits. -/
theorem encodingIsDeterminedByRunState : Obligations.EncodingIsDeterminedByRunState := by
  intro a s s' u u' hT hH hW hlo hhi hst hlen hroom hs hu
  obtain ⟨s₁, T, v, hn, ho, hr, rfl⟩ := encSymRule_steps (completes_rule hs).2
  obtain ⟨u₁, T', v', hn', ho', hr', rfl⟩ := encSymRule_steps (completes_rule hu).2
  rw [hT, hH, ho'] at ho
  obtain rfl : T' = T := Except.ok.inj ho
  rw [hT, hH] at hn
  have h0 : s.SameEncoding s.outLen.toNat u :=
    ⟨hlo, hhi, hst, hlen, hroom, fun i h₁ h₂ => absurd h₂ h₁.not_gt⟩
  have h := (h0.narrow hn hn').renormEncLoop hr hr'
  refine ⟨rfl, ?_, h.lo, h.hi, h.straddle, h.outLen, h.bits⟩
  show slide _ _ _ = slide _ _ _
  rw [hH, hW]

end Sys2Proof.Machine
end

section
/-! PROOF. Where Observe completes: the counts below the limit and room in T for the contexts that are unseen (R121, R122). -/

namespace Sys2Proof

/-- n more observations of s stay within the limit of R121. -/
structure CtxRecord.HasRoom (b : Config.Build) (s : Symbol) (n : Nat) (r : CtxRecord) : Prop where
  cnt   : r.cnt s + n ≤ Machine.countMax b
  total : r.total + n ≤ Machine.countMax b

theorem CtxRecord.HasRoom.mono {b : Config.Build} {s : Symbol} {m n : Nat} {r : CtxRecord} (h : r.HasRoom b s n)
    (hmn : m ≤ n) : r.HasRoom b s m :=
  ⟨(Nat.add_le_add_left hmn _).trans h.cnt, (Nat.add_le_add_left hmn _).trans h.total⟩

theorem CtxRecord.HasRoom.bump {b : Config.Build} {s : Symbol} {n : Nat} {r : CtxRecord} (h : r.HasRoom b s (n + 1)) :
    (r.bump s).HasRoom b s n := by
  have hc := h.cnt
  have ht := h.total
  refine ⟨?_, ?_⟩
  · rw [cnt_bump, if_pos rfl]; omega
  · rw [total_bump]; omega

theorem CtxRecord.HasRoom.fresh {b : Config.Build} (s : Symbol) {n : Nat} (h : n + 1 ≤ Machine.countMax b) :
    (CtxRecord.fresh s).HasRoom b s n := by
  refine ⟨?_, ?_⟩
  · rw [cnt_fresh, if_pos rfl]; omega
  · rw [total_fresh]; omega

/-- A count is at most the total (R39(a)). -/
theorem CtxRecord.Sound.cnt_le_total {b : Config.Build} {r : CtxRecord} (h : r.Sound b) (a : Symbol) :
    r.cnt a ≤ r.total :=
  Machine.cnt_le_nonExcluded h List.nodup_nil List.not_mem_nil

/-- Writing adds at most one record. -/
theorem Table.length_put_le (t : Table) (c : Context) (r : CtxRecord) : (t.put c r).length ≤ t.length + 1 := by
  unfold Table.put
  induction t with
  | nil => exact le_rfl
  | cons e t ih =>
    simp only [Machine.Assoc.insert]
    split
    · exact le_rfl
    · split
      · exact Nat.le_succ _
      · exact Nat.succ_le_succ ih

namespace Machine

variable {b : Config.Build} {h : Context} {s : Symbol} {t : Table} {r : CtxRecord}

theorem bumpRecord_of_hasRoom (hr : r.HasRoom b s 1) (c : Context) :
    bumpRecord b t c r s = .ok (t.put c (r.bump s)) :=
  if_neg (by have := hr.cnt; have := hr.total; omega)

/-- What Observe needs from order k - 1 down: counts and totals two below the limit (order 0 may be counted twice, R116),
and T has room for a record at every order if a context is unseen. -/
structure ObserveRoom (b : Config.Build) (h : Context) (s : Symbol) (k : Nat) (t : Table) : Prop where
  counts : ∀ j < k, ∀ r, t.record? (ctx h j) = some r → r.HasRoom b s 2
  floor  : k = 0 → ∀ r, t.record? [] = some r → r.HasRoom b s 1
  room   : ∀ n, b.ctxCap = some n → (∃ j < k, t.record? (ctx h j) = none) → t.length + k ≤ n

/-- Counting s at order k leaves what the shorter orders need. -/
theorem ObserveRoom.put {k : Nat} (hk : k ≤ h.length) (hR : ObserveRoom b h s (k + 1) t) (hr : r.HasRoom b s 1) :
    ObserveRoom b h s k (t.put (ctx h k) r) := by
  have hput (j : Nat) (hj : j < k) : (t.put (ctx h k) r).record? (ctx h j) = t.record? (ctx h j) :=
    Table.record?_put_other t r (ctx_ne hk (by omega) (by omega))
  refine ⟨fun j hj r' hr' => ?_, fun h0 r' hr' => ?_, fun n hn ⟨j, hj, hnone⟩ => ?_⟩
  · exact hR.counts j (by omega) r' (by rwa [hput j hj] at hr')
  · subst h0
    rw [ctx_zero, Table.record?_put_same] at hr'
    exact Option.some.inj hr' ▸ hr
  · have := hR.room n hn ⟨j, by omega, by rwa [hput j hj] at hnone⟩
    have := t.length_put_le (ctx h k) r
    omega

/-- Where a context of order below k is unseen, T is not full. -/
theorem ObserveRoom.not_full {k : Nat} (hR : ObserveRoom b h s (k + 1) t) (hr : t.record? (ctx h k) = none) :
    tableIsFull b t = false := by
  unfold tableIsFull
  split
  · rfl
  · have := hR.room _ ‹_› ⟨k, Nat.lt_succ_self k, hr⟩
    exact decide_eq_false (by omega)

/-- With that room, Observe completes. -/
theorem observeFrom_isOk (hb : 2 ≤ countMax b) {k : Nat} (hk : k ≤ h.length + 1) (hR : ObserveRoom b h s k t) :
    ∃ t', observeFrom b h s k t = .ok t' := by
  induction k generalizing t with
  | zero =>
    rw [observeFrom, observeFloor]
    split
    · exact ⟨_, bumpRecord_of_hasRoom (hR.floor rfl _ ‹_›) []⟩
    · exact ⟨t, rfl⟩
  | succ k ih =>
    have pass {r : CtxRecord} (hr : r.HasRoom b s 1) : ∃ t', observeFrom b h s k (t.put (ctx h k) r) = .ok t' :=
      ih (by omega) (hR.put (by omega) hr)
    rw [observeFrom]
    split
    · rw [hR.not_full ‹_›]
      exact pass (.fresh s hb)
    · rename_i r hr
      have hroom := hR.counts k (Nat.lt_succ_self k) r hr
      rw [bumpRecord_of_hasRoom (hroom.mono (by omega)) (ctx h k)]
      split
      · exact pass hroom.bump
      · exact ⟨_, rfl⟩

/-- A sound table with totals two below the limit, and room for the unseen contexts, is enough (R121, R122). -/
theorem observeFrom_isOk_of_sound {w : Nat} (ht : t.Sound Config.build w)
    (hcount : ∀ e ∈ t, e.2.total + 2 ≤ 4294967295)
    (hroom : ∀ n, Config.CTX_CAP = some n → (∃ k ≤ h.length, t.record? (ctx h k) = none) →
      t.length + h.length + 1 ≤ n) (a : Symbol) :
    ∃ t', observeFrom Config.build h a (h.length + 1) t = .ok t' := by
  refine observeFrom_isOk (by rw [countMax_build]; omega) le_rfl ⟨fun j _ r hr => ?_, fun h0 => absurd h0 (by omega),
    fun n hn ⟨j, hj, hnone⟩ => hroom n hn ⟨j, by omega, hnone⟩⟩
  have htotal := hcount _ (Table.mem_of_record? hr)
  exact ⟨(Nat.add_le_add_right ((ht.of_record? hr).cnt_le_total a) 2).trans htotal, htotal⟩

end Machine

end Sys2Proof
end

section
/-! PROOF. Where the renormalizers complete (R139, R144, R146), and the obligations on where ENC_SYM and DEC_SYM do (R175,
R176). -/

namespace Sys2Proof.Machine

variable {s t u d : State} {a : Symbol} {c : RenormCase}

/-! ## The interval cut off at ONE -/

/-- The interval l, h after n passes from l₀, h₀: LO stays at most ONE, and the width up to ONE doubles in each pass, as does
what HI exceeds ONE by (R140 to R143). -/
structure CutAtOne (l₀ h₀ n l h : Nat) : Prop where
  lo_le   : l ≤ 4294967295
  ordered : l ≤ h
  width   : min h 4294967295 + 1 - l = 2 ^ n * (min h₀ 4294967295 + 1 - l₀)
  excess  : h - 4294967295 = 2 ^ n * (h₀ - 4294967295)

section
variable {l₀ h₀ n l h : Nat}

theorem CutAtOne.refl (hl : l ≤ 4294967295) (hle : l ≤ h) : CutAtOne l h 0 l h :=
  ⟨hl, hle, by rw [pow_zero, one_mul], by rw [pow_zero, one_mul]⟩

/-- One pass on an interval whose LO is at most ONE: HALF and QUARTER are what ONE moves by as well. -/
theorem stretch_cutAtOne (hl : l ≤ 4294967295) (hle : l ≤ h) (hc : renormCase l h = some c) :
    2 * (l - c.offset) ≤ 4294967295 ∧ 2 * (l - c.offset) ≤ 2 * (h - c.offset) + 1 ∧
      min (2 * (h - c.offset) + 1) 4294967295 + 1 - 2 * (l - c.offset) = 2 * (min h 4294967295 + 1 - l) ∧
      2 * (h - c.offset) + 1 - 4294967295 = 2 * (h - 4294967295) := by
  rcases renormCase_some hc with ⟨rfl, hlow⟩ | ⟨rfl, -, hhigh⟩ | ⟨rfl, hmid, -, -, hmid'⟩
  · rw [offset_low]; omega
  · rw [offset_high]; omega
  · rw [offset_mid]; omega

theorem CutAtOne.pass (hcut : CutAtOne l₀ h₀ n l h) (hc : renormCase l h = some c) :
    CutAtOne l₀ h₀ (n + 1) (2 * (l - c.offset)) (2 * (h - c.offset) + 1) := by
  obtain ⟨hl, hle, hwidth, hexcess⟩ := stretch_cutAtOne hcut.lo_le hcut.ordered hc
  exact ⟨hl, hle, by rw [hwidth, hcut.width, pow_succ', mul_assoc], by rw [hexcess, hcut.excess, pow_succ', mul_assoc]⟩

/-- The width up to ONE is at most 2^32. -/
theorem CutAtOne.width_le (hcut : CutAtOne l₀ h₀ n l h) : 2 ^ n * (min h₀ 4294967295 + 1 - l₀) ≤ 2 ^ 32 := by
  rw [← hcut.width]; omega

/-- No more than 32 passes fit. -/
theorem CutAtOne.le_32 (hcut : CutAtOne l₀ h₀ n l h) : n ≤ 32 := by
  have hpos : 0 < 2 ^ n * (min h₀ 4294967295 + 1 - l₀) := by
    have := hcut.lo_le
    have := hcut.ordered
    rw [← hcut.width]; omega
  have hle : 2 ^ n ≤ 2 ^ 32 := (Nat.le_mul_of_pos_right _ (Nat.pos_of_mul_pos_left hpos)).trans hcut.width_le
  exact (Nat.pow_le_pow_iff_right (by decide)).mp hle

end

/-! ## The loop -/

/-- A loop completes where each pass does and carries on what it needs, which at most 32 passes have (R144). -/
theorem renormLoop_isOk {pass : RenormCase → State → Except FaultCode State} {P : Nat → State → Prop}
    (bound : ∀ {k u}, P k u → k ≤ 32)
    (progress : ∀ {k u c}, P k u → renormCase u.lo.toNat u.hi.toNat = some c → ∃ t, pass c u = .ok t ∧ P (k + 1) t)
    {n k : Nat} (hs : P k s) (hn : 32 < n + k) :
    ∃ m t, renormLoop pass n s = .ok t ∧ P m t ∧ Settled t.lo.toNat t.hi.toNat := by
  induction n generalizing k s with
  | zero => have := bound hs; omega
  | succ n ih =>
    rw [renormLoop]
    cases hc : renormCase s.lo.toNat s.hi.toNat with
    | none => exact ⟨k, s, rfl, hs, settled_iff.mpr hc⟩
    | some c =>
      obtain ⟨u, hp, hu⟩ := progress hs hc
      obtain ⟨m, t, ht⟩ := ih hu (by omega)
      simp only [hp]
      exact ⟨m, t, ht⟩

/-! ## RenormEnc -/

theorem stretchEnc_isOk {off : Nat} (hle : s.lo.toNat ≤ s.hi.toNat) (hfit : 2 * (s.hi.toNat - off) + 1 < 2 ^ 64) :
    ∃ t, stretchEnc Config.build off s = .ok t := by
  refine ⟨_, if_pos ?_⟩
  rw [Bool.and_eq_true_iff, widthOk_build, widthOk_build]
  omega

theorem renormEncPass_isOk (hle : s.lo.toNat ≤ s.hi.toNat) (hfit : 2 * (s.hi.toNat - c.offset) + 1 < 2 ^ 64)
    (hroom : s.outLen.toNat + s.straddle.toNat + 1 ≤ 524288) : ∃ t, renormEncPass Config.build c s = .ok t := by
  obtain ⟨u, hu⟩ := caseEmit_isOk hroom c
  have hlo : u.lo = s.lo := by rw [(caseEmit_same hu).eq]
  have hhi : u.hi = s.hi := by rw [(caseEmit_same hu).eq]
  obtain ⟨t, ht⟩ := stretchEnc_isOk (s := u) (off := c.offset) (by rw [hlo, hhi]; exact hle) (by rw [hhi]; exact hfit)
  exact ⟨t, by rw [renormEncPass, hu]; exact ht⟩

/-- Where RenormEnc stands after n stretches from s, LO being at most ONE. -/
structure State.RenormedBelowOne (s : State) (n : Nat) (u : State) : Prop extends State.Renormed s n u where
  cut : CutAtOne s.lo.toNat s.hi.toNat n u.lo.toNat u.hi.toNat

/-- RenormEnc completes where HI stays within 64 bits and OBUF has room for a bit in each pass that the interval, cut off at
ONE, can take. -/
theorem renormEnc_isOk (hlo : s.lo.toNat ≤ 4294967295) (hle : s.lo.toNat ≤ s.hi.toNat)
    (hfit : ∀ n, 2 ^ n * (min s.hi.toNat 4294967295 + 1 - s.lo.toNat) ≤ 2 ^ 32 →
      4294967295 + 2 ^ n * (s.hi.toNat - 4294967295) < 2 ^ 64 ∧ s.outLen.toNat + s.straddle.toNat + n ≤ 524288) :
    ∃ n t, renormEnc Config.build s = .ok t ∧ s.RenormedBelowOne n t ∧ Settled t.lo.toNat t.hi.toNat := by
  have hcut : CutAtOne s.lo.toNat s.hi.toNat 0 s.lo.toNat s.hi.toNat := .refl hlo hle
  have hroom := (hfit 0 hcut.width_le).2
  have h0 : s.RenormedBelowOne 0 s := ⟨⟨hle, by rw [pow_zero, one_mul], by omega, rfl, id⟩, hcut⟩
  have progress {k u c} (hu : s.RenormedBelowOne k u) (hc : renormCase u.lo.toNat u.hi.toNat = some c) :
      ∃ t, renormEncPass Config.build c u = .ok t ∧ s.RenormedBelowOne (k + 1) t := by
    have hcut := hu.cut.pass hc
    obtain ⟨hhi, hout⟩ := hfit (k + 1) hcut.width_le
    rw [← hcut.excess] at hhi
    have howed := hu.owed
    obtain ⟨t, ht⟩ := renormEncPass_isOk (c := c) hu.ordered (by omega) (by omega)
    have hst := renormEncPass_stretched ht
    exact ⟨t, ht, hu.pass hc ht, by rw [hst.lo, hst.hi]; exact hcut⟩
  rw [renormEnc_eq]
  exact renormLoop_isOk (fun hu => hu.cut.le_32) progress h0 (by omega)

/-! ## RenormDec -/

theorem absorb_isOk (h : s.cursor.toNat < s.runLen.toNat + 32) : ∃ p, absorb s = .ok p := by
  obtain ⟨hstream, hpad, -⟩ := absorbReadsStreamThenPadding s
  rcases Nat.lt_or_ge s.cursor.toNat s.runLen.toNat with hlt | hge
  · exact ⟨_, hstream hlt⟩
  · exact ⟨_, hpad hge h⟩

theorem stretchDec_isOk {off : Nat} (hcur : s.cursor.toNat < s.runLen.toNat + 32) (hle : s.lo.toNat ≤ s.hi.toNat)
    (hfit : 2 * (s.hi.toNat - off) + 1 < 2 ^ 64) (hval : 2 * (s.value.toNat - off) + 1 < 2 ^ 64) :
    ∃ t, stretchDec Config.build off s = .ok t := by
  obtain ⟨⟨v, u⟩, hu⟩ := absorb_isOk hcur
  have hv := Bool.toNat_le v
  rw [stretchDec, hu]
  refine ⟨_, if_pos ?_⟩
  rw [Bool.and_eq_true_iff, Bool.and_eq_true_iff, widthOk_build, widthOk_build, widthOk_build]
  omega

/-- Where RenormDec stands after n stretches from d, LO being at most ONE. -/
structure State.AbsorbedBelowOne (d : State) (n : Nat) (u : State) : Prop where
  absorbed : ∃ x, d.Absorbed n x u
  value_lt : u.value.toNat + 1 ≤ 2 ^ n * (d.value.toNat + 1)
  cut      : CutAtOne d.lo.toNat d.hi.toNat n u.lo.toNat u.hi.toNat

/-- One stretch adds at most a bit to twice VALUE (R146). -/
theorem stretchDec_value_lt {off : Nat} (h : stretchDec Config.build off s = .ok t) :
    t.value.toNat + 1 ≤ 2 * (s.value.toNat + 1) := by
  obtain ⟨-, -, -, hval⟩ := stretchDec_absorbs h
  have := Bool.toNat_le (decide (s.cursor.toNat < s.runLen.toNat) && s.ibit s.cursor.toNat)
  omega

/-- RenormDec completes where HI and VALUE stay within 64 bits and the stream lasts for a bit in each pass that the
interval, cut off at ONE, can take. -/
theorem renormDec_isOk (hlo : d.lo.toNat ≤ 4294967295) (hle : d.lo.toNat ≤ d.hi.toNat)
    (hv : d.lo.toNat ≤ d.value.toNat)
    (hfit : ∀ n, 2 ^ n * (min d.hi.toNat 4294967295 + 1 - d.lo.toNat) ≤ 2 ^ 32 →
      4294967295 + 2 ^ n * (d.hi.toNat - 4294967295) < 2 ^ 64 ∧
      (d.value.toNat ≤ d.hi.toNat ∨ 2 ^ n * (d.value.toNat + 1) ≤ 2 ^ 64) ∧
      d.cursor.toNat + n ≤ d.runLen.toNat + 32) :
    ∃ n t, renormDec Config.build d = .ok t ∧ d.AbsorbedBelowOne n t ∧ Settled t.lo.toNat t.hi.toNat := by
  have h0 : d.AbsorbedBelowOne 0 d :=
    ⟨⟨0, hle, by rw [pow_zero, one_mul], rfl, rfl, rfl, one_pos, fun _ hj => absurd hj (Nat.not_lt_zero _), by omega,
      id⟩, by rw [pow_zero, one_mul], .refl hlo hle⟩
  have progress {k u c} (hu : d.AbsorbedBelowOne k u) (hc : renormCase u.lo.toNat u.hi.toNat = some c) :
      ∃ t, stretchDec Config.build c.offset u = .ok t ∧ d.AbsorbedBelowOne (k + 1) t := by
    have hcut := hu.cut.pass hc
    obtain ⟨x, hx⟩ := hu.absorbed
    obtain ⟨hhi, hvalue, hcursor⟩ := hfit (k + 1) hcut.width_le
    rw [← hcut.excess] at hhi
    have hdouble : 2 ^ (k + 1) * (d.value.toNat + 1) = 2 * (2 ^ k * (d.value.toNat + 1)) := by rw [pow_succ', mul_assoc]
    have hcur : u.cursor.toNat < u.runLen.toNat + 32 := by rw [hx.cursor, hx.runLen]; omega
    have hval : 2 * (u.value.toNat - c.offset) + 1 < 2 ^ 64 := by
      rcases hvalue with hin | hsmall
      · have := hx.inside hin
        omega
      · have := hu.value_lt
        rw [hdouble] at hsmall
        omega
    obtain ⟨t, ht⟩ := stretchDec_isOk hcur hx.ordered (by omega) hval
    have hst := stretchDec_stretched ht
    have hlt := stretchDec_value_lt ht
    have := hu.value_lt
    exact ⟨t, ht, hx.pass hc ht, by rw [hdouble]; omega, by rw [hst.lo, hst.hi]; exact hcut⟩
  rw [renormDec_eq]
  exact renormLoop_isOk (fun hu => hu.cut.le_32) progress h0 (by omega)

/-! ## The symbol commands -/

/-- Narrow completes where P[s] ≥ 1/range and HI stays within 64 bits (R134, R136); the interval is what it computes. -/
theorem narrow_isOk {e : Estimate} (hle : s.lo.toNat ≤ s.hi.toNat) (hp : 1 ≤ (s.range : ℚ) * e.p a)
    (hh : narrowedHi Config.build e a s < 2 ^ 64) :
    ∃ u, narrow Config.build e a s = .ok u ∧ u.lo.toNat = narrowedLo Config.build e a s ∧
      u.hi.toNat = narrowedHi Config.build e a s ∧ u.range = ⌊(s.range : ℚ) * e.p a⌋₊ + 1 ∧
      u = { s with lo := u.lo, hi := u.hi } := by
  have hr : (0 : ℚ) < s.range := by exact_mod_cast range_pos hle
  have hfit : narrowedHi Config.build e a s ≤ 2 ^ 64 - 1 := by omega
  have hne : ¬ narrowedLo Config.build e a s = narrowedHi Config.build e a s := by
    rw [narrowedLo_eq_narrowedHi_iff hle, lt_div_iff₀' hr]; exact hp.not_gt
  have hlo := toNat_ofNat_reg (narrowedLo_le_narrowedHi.trans hfit)
  have hhi := toNat_ofNat_reg hfit
  refine ⟨s.setInterval (narrowedLo Config.build e a s) (narrowedHi Config.build e a s),
    (narrow_of_fits ?_ hfit).trans (if_neg hne), hlo, hhi, ?_, rfl⟩
  · intro h0
    rw [h0, mul_zero] at hp
    exact absurd hp (by norm_num)
  · rw [State.range, State.setInterval_hi, State.setInterval_lo, hlo, hhi, narrowedHi_build]
    omega

/-- Settles O52: Narrow, Observe and RenormEnc each complete under the hypotheses, and RenormEnc's account gives the rest. -/
theorem encSymCompletes : Obligations.EncSymCompletes := by
  intro a s hs hm ht hcount hroom hle hp e l h hl hfit
  have hpa : e.p a = estimateOne Config.build s.table s.hist a := estimate_p s.table s.hist a
  rw [← hpa] at hp ⊢
  have hh : h < 2 ^ 64 := by
    have := (hfit 0 (by omega)).1
    omega
  obtain ⟨u, hn, hlo, hhi, hrange, hu⟩ := narrow_isOk hle hp hh
  obtain ⟨T, ho⟩ := observeFrom_isOk_of_sound ht hcount hroom a
  obtain ⟨n, v, hr, hv, hset⟩ := renormEnc_isOk (s := u) (hlo.trans_le hl) (by rw [hlo, hhi]; exact narrowedLo_le_narrowedHi)
    (by rw [hlo, hhi, hu]; exact hfit)
  have hrule : encSymRule Config.build a s = .ok (v.setModel T (slide s.runW.toNat s.hist a)).countSymbol := by
    rw [encSymRule_of_observe hn ho, hr]; rfl
  refine ⟨_, u, v, exec_of_ok (legality_encSym_of_active hs hm a) hrule, ?_, ?_, ho, rfl, hn, hr, rfl, rfl, rfl, rfl,
    fun _ => rfl, hset, n, hv.cut.le_32, ?_, ?_⟩
  · rw [encoded_eq hn hr]; exact hs
  · rw [encoded_eq hn hr]
  · rw [← hrange]; exact hv.range
  · have := hv.owed
    rw [hu] at this
    exact this

/-- Locate finds the symbol whose part of F holds x; 255 where x is past F[256] too (R137, log entry 7). -/
theorem locate_of_bounds {w : Nat} {t : Table} {h : Context} (ht : t.Sound Config.build w)
    (hle : s.lo.toNat ≤ s.hi.toNat) (hv : s.lo.toNat ≤ s.value.toNat)
    (hf : (estimate Config.build t h).f a.toNat ≤ scaledValue Config.build s)
    (hnext : a.toNat < 255 → scaledValue Config.build s < (estimate Config.build t h).f (a.toNat + 1)) :
    locate Config.build (estimate Config.build t h) s = .ok a := by
  refine locateInvertsNarrow w t h s a ht hle ((f_le_scaledValue_iff hle hv).mp hf) fun ha => ?_
  rw [← not_le, ← f_le_scaledValue_iff hle hv, not_le, toNat_succ_symbol ha]
  exact hnext ha

/-- Settles O53: Locate finds a, and Narrow, Observe and RenormDec complete under the hypotheses. -/
theorem decSymCompletes : Obligations.DecSymCompletes := by
  intro a s hs hm ht hcount hroom hle hv e l h hf hnext hp hl hfit
  have hpa : e.p a = estimateOne Config.build s.table s.hist a := estimate_p s.table s.hist a
  rw [← hpa] at hp
  have hr : (0 : ℚ) < s.range := by exact_mod_cast range_pos hle
  rw [← Nat.cast_sub hv, ← le_div_iff₀ hr, ← scaledValue_build] at hf
  rw [← Nat.cast_sub hv, ← div_lt_iff₀ hr, ← scaledValue_build] at hnext
  have hh : h < 2 ^ 64 := by
    have := (hfit 0 (by omega)).1
    omega
  obtain ⟨u, hn, hlo, hhi, -, hu⟩ := narrow_isOk hle hp hh
  obtain ⟨T, ho⟩ := observeFrom_isOk_of_sound ht hcount hroom a
  have huv : u.value = s.value := by rw [hu]
  obtain ⟨n, v, hr, hv', hset⟩ := renormDec_isOk (d := u) (hlo.trans_le hl)
    (by rw [hlo, hhi]; exact narrowedLo_le_narrowedHi) (by rw [hlo, huv]; exact narrowedLo_le_value hle hv hf)
    (by rw [hlo, hhi, hu]; exact hfit)
  have hrule : decSymRule Config.build s =
      .ok ((v.setModel T (slide s.runW.toNat s.hist a)).setSym a).countSymbol := by
    rw [decSymRule_of_observe (locate_of_bounds ht hle hv hf hnext) hn ho, hr]; rfl
  obtain ⟨x, hx⟩ := hv'.absorbed
  refine ⟨_, u, v, exec_of_ok (legality_decSym_of_active hs hm) hrule, ?_, rfl, rfl, ?_, ho, rfl, hn, hr, rfl, rfl, rfl,
    rfl, hset, ?_, fun hin => ?_, n, hv'.cut.le_32, ?_⟩
  · rw [decoded_eq hn hr]; exact hs
  · rw [decoded_eq hn hr]
  · show v.lo.toNat ≤ v.value.toNat
    have := hx.value
    omega
  · exact hx.inside (by rw [huv, hhi]; exact hin)
  · have := hx.cursor
    rw [hu] at this
    exact this

end Sys2Proof.Machine
end

section
/-! PROOF. The obligations on exceptions: which command and which host access raises which fault (R200, R214), that FAULTED
keeps the first fault's code (R217, R219), and that no fault stops the machine (R215). -/

namespace Sys2Proof.Machine

variable {s t : State} {i : Instr}

/-- Settles O7: whether the next event is the core's turn or a host move. -/
theorem everyStepHasNextState : Obligations.EveryStepHasNextState := step_isNext

/-! ## The faults of each command -/

/-- The faults of ENC_SYM's rule: those of Narrow and Observe, and then those of RenormEnc (R175). -/
theorem encSymRule_error_mem {b : Config.Build} {a : Symbol} {c : FaultCode} (h : encSymRule b a s = .error c) :
    c ∈ [FaultCode.zeroInterval, .modelInconsistency, .intervalOverflow, .straddleOverflow, .countOverflow, .tableFull,
      .sinkFull] := by
  unfold encSymRule at h
  split at h
  · injection h with h
    exact h ▸ List.subset_def.mp (by decide) (codeSymbol_error ‹_›)
  · split at h
    · injection h with h
      rcases renormEncLoop_error ‹_› with h' | h' | h' <;> simp [← h, h']
    · injection h

/-- The faults of DEC_SYM's rule: that of Locate, those of Narrow and Observe, and then those of RenormDec (R176). -/
theorem decSymRule_error_mem {b : Config.Build} {c : FaultCode} (h : decSymRule b s = .error c) :
    c ∈ [FaultCode.zeroInterval, .modelInconsistency, .intervalOverflow, .countOverflow, .tableFull, .sourceExhausted,
      .noSymbol] := by
  unfold decSymRule at h
  split at h
  · injection h with h
    simp [← h, locate_error ‹_›]
  · split at h
    · injection h with h
      exact h ▸ List.subset_def.mp (by decide) (codeSymbol_error ‹_›)
    · split at h
      · injection h with h
        rcases renormDecLoop_error ‹_› with h' | h' <;> simp [← h, h']
      · injection h

/-- A command that takes the core to FAULTED is illegal there, or its rule has raised the fault (R171, R216). -/
theorem exec_fault_cause (h : exec i s = .next t) (hs : s.runState ≠ .faulted) (ht : t.runState = .faulted) :
    (legality i s.runState s.mode = .illegal ∧ t.fault = .illegalCommand) ∨ ruleOf i s = .error t.fault := by
  rw [exec_eq] at h
  rcases issue_next h with ⟨-, rfl⟩ | ⟨hl, rfl⟩ | ⟨-, hr⟩ | ⟨-, c, hc, rfl⟩
  · exact absurd ht hs
  · exact .inl ⟨hl, rfl⟩
  · exact absurd ht (ruleOf_not_faulted hr hs)
  · exact .inr hc

/-- Settles O15: R171's table and the faults of each command's rule; a host access by what it does with BUSY. -/
theorem faultsComeFromTheirCommands : Obligations.FaultsComeFromTheirCommands := by
  refine ⟨⟨rfl, rfl, rfl, rfl, rfl, rfl, rfl, rfl, rfl, rfl, rfl, rfl, rfl, rfl, rfl, fun c => by cases c <;> decide⟩,
    fun i s t h hs ht => ?_, fun a v s hs => ⟨fun ht => ?_, fun ht => ?_⟩⟩
  · have cause := exec_fault_cause h hs ht
    cases i with
    | nop => rcases cause with ⟨hl, -⟩ | hr <;> contradiction
    | initEnc =>
      rcases cause with ⟨hl, -⟩ | hr
      · contradiction
      · exact initEncRule_error hr
    | initDec =>
      rcases cause with ⟨hl, -⟩ | hr
      · contradiction
      · rcases initDecRule_error hr with hc | hc <;> simp [hc]
    | encSym a =>
      rcases cause with ⟨-, hc⟩ | hr
      · simp [hc]
      · exact List.mem_append_left [.illegalCommand] (encSymRule_error_mem hr)
    | decSym =>
      rcases cause with ⟨-, hc⟩ | hr
      · simp [hc]
      · exact List.mem_append_left [.illegalCommand] (decSymRule_error_mem hr)
    | finish =>
      rcases cause with ⟨-, hc⟩ | hr
      · simp [hc]
      · rcases finishRule_error hr with hc | hc <;> simp [hc]
  · rcases hostWrite_cases a v s with ⟨hb, h⟩ | ⟨hb, -, h⟩ | ⟨-, ha, h⟩
    · rw [h, raiseHost_of_not_faulted hs, hb]; rfl
    · rw [h, raiseHost_of_not_faulted hs, hb]; rfl
    · rw [(writeTarget_effect ha h).eq] at ht
      exact absurd ht hs
  · rcases hostRead_cases a s with ⟨w, h⟩ | ⟨-, h⟩ | ⟨hb, h⟩
    · rw [h] at ht; exact absurd ht hs
    · rw [h] at ht; exact absurd ht hs
    · rw [h, raiseHost_of_not_faulted hs]; exact ⟨hb, rfl⟩

/-! ## FAULTED -/

/-- What executing a word can do in FAULTED: nothing, start a run, or raise the fault of an INIT (R171, R219). -/
theorem executeWord_of_faulted {w : Word} (hs : s.runState = .faulted) (h : executeWord w s = .next t) :
    t = s ∨ (decodeWord w = .ok .initEnc ∨ decodeWord w = .ok .initDec) ∧
      ((t.runState = .active ∧ t.fault = .noFault) ∨
        (t.runState = .faulted ∧ (t.fault = .badConfig ∨ t.fault = .badLength))) := by
  rcases executeWord_next h with rfl | ⟨hn, -⟩ | ⟨i, hi, hl, hr⟩
  · exact .inl rfl
  · exact absurd hs hn
  · rcases legality_ok_of_faulted hl hs with rfl | rfl | rfl
    · rcases hr with hr | ⟨c, hc, -⟩
      · injection hr with hr; exact .inl hr.symm
      · injection hc
    · refine .inr ⟨.inl hi, ?_⟩
      rcases hr with hr | ⟨c, hc, rfl⟩
      · obtain ⟨-, rfl⟩ := initEncRule_ok hr; exact .inl ⟨rfl, rfl⟩
      · exact .inr ⟨rfl, .inl (initEncRule_error hc)⟩
    · refine .inr ⟨.inr hi, ?_⟩
      rcases hr with hr | ⟨c, hc, rfl⟩
      · obtain ⟨-, -, rfl⟩ := initDecRule_ok hr; exact .inl ⟨rfl, rfl⟩
      · exact .inr ⟨rfl, (initDecRule_error hc).symm⟩

/-- Settles O18: what the core's turn and a host move can do in FAULTED. -/
theorem faultedKeepsFirstCode : Obligations.FaultedKeepsFirstCode := by
  intro s t hs h
  rcases step_cases h with ⟨l, hc⟩ | ⟨m, l, ha, rfl⟩
  · rcases coreStep_next hc with ⟨-, rfl⟩ | ⟨w, u, hw, hx, rfl⟩
    · exact .inl ⟨hs, rfl⟩
    · rcases executeWord_of_faulted (s := s.setAgenda l) hs hx with rfl | hinit
      · exact .inl ⟨hs, rfl⟩
      · exact .inr (.inr ⟨w, hw, hinit⟩)
  · rcases hostMove_cases m (s.setAgenda l) with ⟨rfl, -⟩ | ⟨c, -, he⟩ | he
    · exact .inr (.inl ⟨by rw [ha]; rfl, rfl, rfl⟩)
    · rw [he]; exact .inl ⟨rfl, if_pos hs⟩
    · rw [he.eq]; exact .inl ⟨hs, rfl⟩

/-! ## Bad accesses -/

/-- The writable registers are CMD, CONFIG and IN_LEN (R40, R53). -/
theorem index_of_writeTarget_registerAt {k : Nat} {v : Word} (h : s.writeTarget v (registerAt k) = some t) :
    k = 0 ∨ k = 2 ∨ k = 3 := by
  unfold registerAt at h
  split at h <;> simp [State.writeTarget] at h ⊢

/-- The writable addresses are those of CMD, CONFIG, IN_LEN and IBUF (R40, R50, R53). -/
theorem address_of_writeTarget {a : Addr} {v : Word} (ha : misaligned a = false)
    (h : s.writeTarget v (targetOf a) = some t) :
    a.toNat = 0 ∨ a.toNat = 0x8 ∨ a.toNat = 0xC ∨ (0x10000 ≤ a.toNat ∧ a.toNat < 0x20000) := by
  have h4 := toNat_mod_four_of_aligned ha
  unfold targetOf at h
  split at h
  · have := index_of_writeTarget_registerAt h
    omega
  · split at h
    · injection h
    · split at h
      · omega
      · split at h <;> injection h

theorem targetOf_reserved {a : Addr} (h : (0x40 ≤ a.toNat ∧ a.toNat < 0x10000) ∨ 0x30000 ≤ a.toNat) :
    targetOf a = .reserved := by
  unfold targetOf
  rcases h with ⟨h₁, h₂⟩ | h
  · rw [if_neg (by omega), if_pos h₂]
  · rw [if_neg (by omega), if_neg (by omega), if_neg (by omega), if_neg (by omega)]

/-- A misaligned or reserved read with BUSY = 0 raises BusError and returns 0 (R214). -/
theorem hostRead_of_bad {a : Addr} (hb : s.busy = false)
    (h : misaligned a = true ∨ s.readTarget (targetOf a) = none) :
    hostRead a s = (s.raiseHost .busError).deliver 0 := by
  cases hm : misaligned a
  · have hr : s.readTarget (targetOf a) = none := by simpa [hm] using h
    simp [hostRead, hb, hm, hr]
  · simp [hostRead, hb, hm]

/-- Settles O28: a bad address has no target to read, or none to write; CONFIG and IN_LEN take every word. -/
theorem badAccessRaisesBusError : Obligations.BadAccessRaisesBusError := by
  intro s a v hb code reserved readOnly
  refine ⟨fun h => hostRead_of_bad hb ?_, fun h => ?_, ?_, ?_⟩
  · rcases h with h | h
    · exact .inl (by simpa using mt toNat_mod_four_of_aligned h)
    · exact .inr (by rw [targetOf_reserved h]; rfl)
  · rcases hostWrite_cases a v s with ⟨hb', -⟩ | ⟨-, -, he⟩ | ⟨-, ha, he⟩
    · rw [hb] at hb'; contradiction
    · exact he
    · have h4 := toNat_mod_four_of_aligned ha
      have := address_of_writeTarget ha he
      omega
  · rw [hostWrite_of_target (a := 0x008) (t := s.setConfig v) hb rfl rfl]; rfl
  · rw [hostWrite_of_target (a := 0x00C) (t := s.setInLen v) hb rfl rfl]; rfl

end Sys2Proof.Machine
end

section
/-! PROOF. The obligations on the output of an encode run (R245) and on the reset event (R230, R231). -/

namespace Sys2Proof.Machine

variable {s t : State} {i : Instr}

/-! ## The output is only appended to -/

/-- A command that starts no run only appends to the output: ENC_SYM through RenormEnc, FINISH through Flush, and the others
write neither OUT_LEN nor OBUF (R245). -/
theorem ruleOf_extends (hs : s.outLen.toNat ≤ 524288) (h : ruleOf i s = .ok t) (he : i ≠ .initEnc) (hd : i ≠ .initDec) :
    s.Extends t := by
  cases i with
  | nop => injection h with h; exact h ▸ .refl hs
  | initEnc => exact absurd rfl he
  | initDec => exact absurd rfl hd
  | encSym a =>
    obtain ⟨u, T, v, hn, -, hr, rfl⟩ := encSymRule_steps h
    obtain ⟨-, -, -, -, rfl⟩ := narrow_ok hn
    have hext : State.Extends (s.setInterval _ _) v := renormEnc_extends hs hr
    exact ⟨hext.mono, hext.room, hext.bits, hext.bytes⟩
  | decSym =>
    obtain ⟨a, -, hf⟩ := decSymRule_frame h
    exact (State.Extends.refl hs).congr (by rw [hf]) (by rw [hf]) (by rw [hf])
  | finish =>
    rcases finishRule_ok h with ⟨-, rfl⟩ | ⟨-, u, hu, rfl⟩
    · exact (State.Extends.refl hs).congr rfl rfl rfl
    · exact (flush_extends hs hu).congr rfl rfl rfl

/-- Settles O57: a completed command has run its rule, which only appends to the output. -/
theorem outputIsAppendOnly : Obligations.OutputIsAppendOnly := by
  intro i s t hs h he hd
  have hext := ruleOf_extends hs (completes_rule h).2 he hd
  exact ⟨hext.mono, fun j hj => hext.bits j (.inl hj)⟩

/-! ## The reset event -/

/-- A step with a host move next on the agenda performs it (R61). -/
theorem step_of_agenda_host {m : HostMove} {l : List Event} (h : s.agenda = .host m :: l) :
    step s = .next (hostMove m (s.setAgenda l)) := by
  rw [step, h]

/-- STATUS after RESET (R231). -/
theorem status_assertReset (s : State) : s.assertReset.status = 0x00000000 := by
  have hd : s.assertReset.inputDone = false := by simp [State.inputDone]
  have hb : s.assertReset.busy = false := rfl
  rw [State.status, hd, hb, State.assertReset_fault, State.assertReset_symValid, State.assertReset_mode,
    State.assertReset_runState]
  decide

/-- Settles O9: the step asserts RESET, which writes R46's values field by field whatever the state holds, and leaves
buffers that list nothing, so that each byte reads from the draw RESET made. -/
theorem resetEventRestoresResetState : Obligations.ResetEventRestoresResetState := by
  intro s l h
  have hstatus : (s.setAgenda l).assertReset.readTarget .status = some 0x00000000 :=
    congrArg some (status_assertReset _)
  exact ⟨(s.setAgenda l).assertReset, step_of_agenda_host h, rfl, rfl, rfl, rfl, rfl, rfl, rfl, rfl, rfl, rfl, rfl, rfl,
    rfl, rfl, rfl, rfl, rfl, rfl, rfl, rfl, hstatus, rfl, rfl, fun _ => ⟨rfl, rfl⟩⟩

end Sys2Proof.Machine
end
